-- ==== Sys2Proof/Word.lean ====
section
/-! DEFINITION. The word types of the bus core (00_scope.md R10, R11): 8-bit lanes, 16-bit bus words, 24-bit
addresses, 28-bit transaction descriptors (30_encoding.md R80). -/

namespace Sys2Proof

/-- One byte lane, `u8`. -/
abbrev Byte := BitVec 8

/-- One bus word, `u16`: two byte lanes. -/
abbrev Word := BitVec 16

/-- A primary-bus or peek address, `u24`, exactly as presented (30_encoding.md R83). -/
abbrev Addr := BitVec 24

/-- The 28-bit transaction descriptor `T` of 30_encoding.md R80. -/
abbrev Descriptor := BitVec 28

end Sys2Proof
end

