-- ==== Sys2Proof/Syntax.lean ====
section
/-! DEFINITION. The syntax of the block's requests and instructions: 30_encoding.md R80 to R93 and the 48 rows of
spec/opcode_table.json. -/

namespace Sys2Proof

/-- The legal lane requests `(H, L)`: exactly the set of 30_encoding.md R82. -/
inductive Lanes where
  /-- `(H, L) = (1, 0)` -/
  | high
  /-- `(H, L) = (0, 1)` -/
  | low
  /-- `(H, L) = (1, 1)` -/
  | both
  deriving DecidableEq, Repr, Inhabited

/-- The three fixed hardware joypad ports (10_state.md R26). -/
inductive Port where
  | p0
  | p1
  | p2
  deriving DecidableEq, Repr

/-- The eight button tokens of 42_joypad.md R181. -/
inductive Button where
  | up
  | down
  | left
  | right
  | a
  | b
  | c
  | start
  deriving DecidableEq, Repr

/-- A handle that names a host callback (45_lifecycle.md R267); log 13. -/
abbrev Handle := Nat

/-- What a primary-bus transaction of the CPU does: a read, or a write of 16-bit data `V` (R84). -/
inductive BusOp where
  | read
  | write (v : Word)
  deriving DecidableEq, Repr, Inhabited

/-- One primary-bus transaction issued by the CPU inside a `cpu_step`, `cpu_interrupt` or `cpu_reset` call
(00_scope.md R12). Its lanes are legal: the empty request has no meaning (30_encoding.md R86). -/
structure BusRequest where
  op    : BusOp
  lanes : Lanes
  addr  : Addr
  deriving DecidableEq, Repr, Inhabited

/-- One line's pixels as the video processor hands them to the scanline callback. The format, the width and the
height are the video processor's (45_lifecycle.md R267, N25); log 17. -/
structure Image where
  pixels : List Byte
  width  : Nat
  height : Nat
  deriving DecidableEq, Repr, Inhabited

/-- The host operations of 30_encoding.md R91, with their operands. -/
inductive HostOp where
  | init
  | reset
  | installRom (bytes : List Byte) (length : Nat)
  | setRomWriteable (b : Int)
  | setPal (b : Int)
  | setJapanese (b : Int)
  | runFrame (scanlineCallback inputQueryCallback : Handle)
  | stateSize
  deriving DecidableEq, Repr

/-- What is presented to the block: a transaction descriptor with its data operand (R80; a read or a peek carries no
`V`, R84, so theirs is ignored), or a host operation, which has no descriptor (R91). -/
inductive Request where
  | transaction (t : Descriptor) (v : Word)
  | host (op : HostOp)
  deriving DecidableEq, Repr

/-- The rows of the primary-bus read table of 30_encoding.md R87. -/
inductive ReadRow where
  | rom
  | sramW
  | sramB
  | sound
  | joy0Data
  | joy12Data
  | joyCtrl (n : Port)
  | memmode
  | busreq
  | z80rst
  | vdpData
  | vdpCtrl
  | hv
  | psg
  | wram
  | invalid
  deriving DecidableEq, Repr

/-- The rows of the primary-bus write table of 30_encoding.md R87. -/
inductive WriteRow where
  | rom
  | sramW
  | sramB
  | sound
  | joyData (n : Port)
  | joyCtrl (n : Port)
  | memmode
  | busreq
  | z80rst
  | vdpData
  | vdpCtrl
  | hv
  | psg
  | wram
  | invalid
  deriving DecidableEq, Repr

/-- The rows of the peek table of 30_encoding.md R87. -/
inductive PeekRow where
  | rom
  | wram
  | invalid
  deriving DecidableEq, Repr

/-- The condition column of the table of 30_encoding.md R87. -/
inductive RowCondition where
  /-- no condition -/
  | always
  /-- `A < S.rom.size` -/
  | belowRomSize
  /-- `H != L` -/
  | oneLane
  deriving DecidableEq, Repr

/-- One row of the match/mask table of 30_encoding.md R87: `T AND mask = pattern`, and the condition. -/
structure TableRow (ρ : Type) where
  row       : ρ
  pattern   : Descriptor
  mask      : Descriptor
  condition : RowCondition
  deriving DecidableEq, Repr

/-- The instructions: one constructor per row of spec/opcode_table.json. A row that matches several addresses has
the address as an operand; a row that fixes its address has none; `lanes` are the operands `H` and `L` of R87 where
the row leaves them free. -/
inductive Instr where
  -- primary-bus reads (40_bus_read.md)
  | rdRom (lanes : Lanes) (a : Addr)
  | rdSramW (a : Addr)
  | rdSramB (lanes : Lanes) (a : Addr)
  | rdSound (lanes : Lanes) (a : Addr)
  | rdJoy0Data (lanes : Lanes)
  | rdJoy12Data (lanes : Lanes) (a : Addr)
  | rdJoyCtrl0 (lanes : Lanes)
  | rdJoyCtrl1 (lanes : Lanes)
  | rdJoyCtrl2 (lanes : Lanes)
  | rdMemmode (lanes : Lanes)
  | rdBusreq (lanes : Lanes)
  | rdZ80rst (lanes : Lanes)
  | rdVdpData (lanes : Lanes) (a : Addr)
  | rdVdpCtrl (lanes : Lanes) (a : Addr)
  | rdHv (lanes : Lanes)
  | rdPsg (lanes : Lanes)
  | rdWram (lanes : Lanes) (a : Addr)
  | rdInvalid (lanes : Lanes) (a : Addr)
  -- primary-bus writes (41_bus_write.md)
  | wrRom (lanes : Lanes) (a : Addr) (v : Word)
  | wrSramW (a : Addr) (v : Word)
  | wrSramB (lanes : Lanes) (a : Addr) (v : Word)
  | wrSound (lanes : Lanes) (a : Addr) (v : Word)
  | wrJoyData0 (lanes : Lanes) (v : Word)
  | wrJoyData1 (lanes : Lanes) (v : Word)
  | wrJoyData2 (lanes : Lanes) (v : Word)
  | wrJoyCtrl0 (lanes : Lanes) (v : Word)
  | wrJoyCtrl1 (lanes : Lanes) (v : Word)
  | wrJoyCtrl2 (lanes : Lanes) (v : Word)
  | wrMemmode (lanes : Lanes) (v : Word)
  | wrBusreq (lanes : Lanes) (v : Word)
  | wrZ80rst (lanes : Lanes) (v : Word)
  | wrVdpData (lanes : Lanes) (a : Addr) (v : Word)
  | wrVdpCtrl (lanes : Lanes) (a : Addr) (v : Word)
  | wrHv (lanes : Lanes) (v : Word)
  | wrPsg (lanes : Lanes) (v : Word)
  | wrWram (lanes : Lanes) (a : Addr) (v : Word)
  | wrInvalid (lanes : Lanes) (a : Addr) (v : Word)
  -- peeks (43_vdp_peek.md)
  | peekRom (a : Addr)
  | peekWram (a : Addr)
  | peekInvalid (a : Addr)
  -- host operations (45_lifecycle.md, 70_reset_and_hazards.md)
  | init
  | reset
  | installRom (bytes : List Byte) (length : Nat)
  | setRomWriteable (b : Int)
  | setPal (b : Int)
  | setJapanese (b : Int)
  | runFrame (scanlineCallback inputQueryCallback : Handle)
  | stateSize
  deriving DecidableEq, Repr

end Sys2Proof
end

