-- ==== Sys2Proof/Config.lean ====
section
/-! DEFINITION. What an implementation fixes (the OPEN parameters of 00_scope.md R10) and the free values: the draws of
00_scope.md R11 and R12, constants without a body, so that nothing can be proved of any of them. -/

namespace Sys2Proof

/-- `BUTTON_ID` (42_joypad.md R181, D30): the host token of each button. -/
structure ButtonIds where
  up    : Nat
  down  : Nat
  left  : Nat
  right : Nat
  a     : Nat
  b     : Nat
  c     : Nat
  start : Nat
  deriving DecidableEq, Repr

/-- The token the host's callback is asked with for a button. -/
def ButtonIds.token (ids : ButtonIds) : Button → Nat
  | .up => ids.up
  | .down => ids.down
  | .left => ids.left
  | .right => ids.right
  | .a => ids.a
  | .b => ids.b
  | .c => ids.c
  | .start => ids.start

/-- The OPEN parameters of 00_scope.md R10, named arguments of the model. Every claim that is stated for every state
holds for every value of them; no step writes them (log 4). -/
structure Params where
  /-- `ROM_CAPACITY` (D22) -/
  romCapacity     : Nat
  /-- `INIT_ZEROES_STORE` (D11) -/
  initZeroesStore : Bool
  /-- `MCLK_NTSC` (D14) -/
  mclkNtsc        : Nat
  /-- `MCLK_PAL` (D14) -/
  mclkPal         : Nat
  /-- `LINES_PER_FRAME` (D14) -/
  linesPerFrame   : Nat
  /-- `CPU_DIV` (D14) -/
  cpuDiv          : Nat
  /-- `VISIBLE_LINES` (D41) -/
  visibleLines    : Nat
  /-- `BUTTON_ID` (D30) -/
  buttonIds       : ButtonIds
  /-- `STATE_SIZE` (D29) -/
  stateSize       : Nat
  deriving DecidableEq, Repr

/-- The constraints R10 puts on the parameters: the capacity bound of D22, and the naturals it calls positive. -/
def Params.valid (p : Params) : Bool :=
  decide (p.romCapacity ≤ 0xA00000) && decide (0 < p.mclkNtsc) && decide (0 < p.mclkPal) &&
    decide (0 < p.linesPerFrame) && decide (0 < p.cpuDiv) && decide (0 < p.visibleLines)

/-- The default of `ROM_CAPACITY`, 4 MiB (R10). -/
def defaultRomCapacity : Nat := 0x400000

/-- The parameters of the machine that `State.reset` describes: R10's defaults for the capacity and
`INIT_ZEROES_STORE`. PRESUMED: the clocks, line counts and divisor are the general-knowledge values of
93_implementation_defined.md G6 and G7. DESIGN CHOICE: the button tokens and the aggregate's size. Log 4: unsafe for a
claim that rests on them; no statement does. -/
def Params.standard : Params where
  romCapacity := defaultRomCapacity
  initZeroesStore := true
  mclkNtsc := 53693175
  mclkPal := 53203424
  linesPerFrame := 262
  cpuDiv := 7
  visibleLines := 224
  buttonIds := { up := 0, down := 1, left := 2, right := 3, a := 4, b := 5, c := 6, start := 7 }
  stateSize := 0

namespace Config

/-- `draw u8`: the ROM byte past the buffer's end (40_bus_read.md R102, D13), and the joypad bytes that an `INIT` with
`INIT_ZEROES_STORE = false` leaves (10_state.md R39). -/
opaque freeByte : Nat → Byte

/-- A drawn Bool: the host's answer to `query` (42_joypad.md R192), the video processor's interrupt-enable flags
(10_state.md R32), and the flags of R39 when `INIT_ZEROES_STORE = false`. -/
opaque freeBool : Nat → Bool

/-- A drawn 16-bit result of `vdp_read_data()` or `vdp_read_ctrl()` (D9). -/
opaque freeWord : Nat → Word

/-- A drawn natural: `S.rom.size` after an `INIT` with `INIT_ZEROES_STORE = false` (R39). -/
opaque freeNat : Nat → Nat

/-- The byte an index of a storage array holds after an `INIT` with `INIT_ZEROES_STORE = false` (R39): the first
argument is the draw's number, the second the index. -/
opaque freeStoreByte : Nat → Nat → Byte

/-- The video processor's state after a facade call: its effect on that state is not specified (00_scope.md R12). -/
opaque freeVdp : Nat → Nat

/-- The transactions the CPU issues inside one `cpu_step`, `cpu_interrupt` or `cpu_reset` call (R12). -/
opaque freeCpuWork : Nat → List BusRequest

/-- The addresses the video processor peeks inside one `vdp_write_ctrl` call (R12, D39). -/
opaque freePeekWork : Nat → List Addr

/-- The pixels of one rendered line (45_lifecycle.md R267, I27). -/
opaque freeImage : Nat → Image

end Config

end Sys2Proof
end

