-- ==== Sys2Proof/WellFormed.lean ====
section
/-! DEFINITION. Which instructions are well formed: the operand ranges that the rules of spec/ give each row
(the addresses column of 30_encoding.md R87, the operands lines of 40_bus_read.md, 41_bus_write.md, 43_vdp_peek.md and
45_lifecycle.md). Decoding depends on `S.rom.size` (R93), so these checks do too. -/

namespace Sys2Proof

/-- `0xA00000..0xA01FFF`, the secondary-RAM rows. -/
def inSecondaryRam (a : Addr) : Bool := decide (0xA00000 ≤ a.toNat ∧ a.toNat ≤ 0xA01FFF)

/-- `0xE00000..0xFFFFFF`, the work-RAM rows. -/
def inWorkRam (a : Addr) : Bool := decide (0xE00000 ≤ a.toNat)

/-- `0xA04000`, `0xA04002`. -/
def isSoundPort (a : Addr) : Bool := a == 0xA04000#24 || a == 0xA04002#24

/-- `0xA10004`, `0xA10006`: the data ports of joypads 1 and 2. -/
def isJoy12DataPort (a : Addr) : Bool := a == 0xA10004#24 || a == 0xA10006#24

/-- `0xC00000`, `0xC00002`. -/
def isVdpDataPort (a : Addr) : Bool := a == 0xC00000#24 || a == 0xC00002#24

/-- `0xC00004`, `0xC00006`. -/
def isVdpCtrlPort (a : Addr) : Bool := a == 0xC00004#24 || a == 0xC00006#24

/-- The single-address rows that the read and the write table share. -/
def isSinglePort (a : Addr) : Bool :=
  a == 0xA10002#24 || a == 0xA10008#24 || a == 0xA1000A#24 || a == 0xA1000C#24 || a == 0xA11000#24 ||
    a == 0xA11100#24 || a == 0xA11200#24 || a == 0xC00008#24 || a == 0xC00010#24

/-- Every other address of the primary bus (20_memory.md R62): the default rows' operands. The read and the write table
name the same addresses. -/
def isUnmapped (romSize : Nat) (a : Addr) : Bool :=
  decide (romSize ≤ a.toNat) && !inSecondaryRam a && !isSoundPort a && !isJoy12DataPort a && !isSinglePort a &&
    !isVdpDataPort a && !isVdpCtrlPort a && !inWorkRam a

/-- Whether an instruction's operands are ones its row admits, with `romSize` the value of `S.rom.size`. -/
def wellFormed (romSize : Nat) : Instr → Bool
  | .rdRom _ a => decide (a.toNat < romSize)
  | .rdSramW a => inSecondaryRam a
  | .rdSramB lanes a => inSecondaryRam a && lanes != .both
  | .rdSound _ a => isSoundPort a
  | .rdJoy0Data _ => true
  | .rdJoy12Data _ a => isJoy12DataPort a
  | .rdJoyCtrl0 _ => true
  | .rdJoyCtrl1 _ => true
  | .rdJoyCtrl2 _ => true
  | .rdMemmode _ => true
  | .rdBusreq _ => true
  | .rdZ80rst _ => true
  | .rdVdpData _ a => isVdpDataPort a
  | .rdVdpCtrl _ a => isVdpCtrlPort a
  | .rdHv _ => true
  | .rdPsg _ => true
  | .rdWram _ a => inWorkRam a
  | .rdInvalid _ a => isUnmapped romSize a
  | .wrRom _ a _ => decide (a.toNat < romSize)
  | .wrSramW a _ => inSecondaryRam a
  | .wrSramB lanes a _ => inSecondaryRam a && lanes != .both
  | .wrSound _ a _ => isSoundPort a
  | .wrJoyData0 _ _ => true
  | .wrJoyData1 _ _ => true
  | .wrJoyData2 _ _ => true
  | .wrJoyCtrl0 _ _ => true
  | .wrJoyCtrl1 _ _ => true
  | .wrJoyCtrl2 _ _ => true
  | .wrMemmode _ _ => true
  | .wrBusreq _ _ => true
  | .wrZ80rst _ _ => true
  | .wrVdpData _ a _ => isVdpDataPort a
  | .wrVdpCtrl _ a _ => isVdpCtrlPort a
  | .wrHv _ _ => true
  | .wrPsg _ _ => true
  | .wrWram _ a _ => inWorkRam a
  | .wrInvalid _ a _ => isUnmapped romSize a
  | .peekRom a => decide (a.toNat < romSize)
  | .peekWram a => inWorkRam a
  | .peekInvalid a => decide (romSize ≤ a.toNat) && !inWorkRam a
  | .init => true
  | .reset => true
  | .installRom bytes length => decide (length ≤ bytes.length)
  | .setRomWriteable _ => true
  | .setPal _ => true
  | .setJapanese _ => true
  | .runFrame _ _ => true
  | .stateSize => true

end Sys2Proof
end

