-- ==== Sys2Proof/Decode.lean ====
section
/-! DEFINITION. The descriptor fields, the match/mask decode table and the decoder (30_encoding.md R80 to R93), and after
it the encoder and the assembler forms of R89. -/

namespace Sys2Proof

/-! ### The descriptor's fields (R80) -/

/-- Bit 27: 1 selects the peek path. -/
def Descriptor.p (t : Descriptor) : Bool := t.getLsbD 27

/-- Bit 26: 1 is a write. -/
def Descriptor.w (t : Descriptor) : Bool := t.getLsbD 26

/-- Bit 25: the high lane is requested. -/
def Descriptor.h (t : Descriptor) : Bool := t.getLsbD 25

/-- Bit 24: the low lane is requested. -/
def Descriptor.l (t : Descriptor) : Bool := t.getLsbD 24

/-- Bits 23:0: the address, exactly as presented (R83). -/
def Descriptor.addr (t : Descriptor) : Addr := t.extractLsb' 0 24

/-- The legal lane request, or none for `H = L = 0` (R82, R86). -/
def Descriptor.lanes? (t : Descriptor) : Option Lanes :=
  match t.h, t.l with
  | true, true => some .both
  | true, false => some .high
  | false, true => some .low
  | false, false => none

/-- The flag `H` of a lane request. -/
def Lanes.h : Lanes → Bool
  | .high => true
  | .low => false
  | .both => true

/-- The flag `L` of a lane request. -/
def Lanes.l : Lanes → Bool
  | .high => false
  | .low => true
  | .both => true

/-! ### The decode table (R87) -/

/-- Primary-bus read rows, in the order given. -/
def readTable : List (TableRow ReadRow) :=
  [ ⟨.rom,         0x0000000, 0xC000000, .belowRomSize⟩,
    ⟨.sramW,       0x3A00000, 0xFFFE000, .always⟩,
    ⟨.sramB,       0x0A00000, 0xCFFE000, .oneLane⟩,
    ⟨.sound,       0x0A04000, 0xCFFFFFD, .always⟩,
    ⟨.joy0Data,    0x0A10002, 0xCFFFFFF, .always⟩,
    ⟨.joy12Data,   0x0A10004, 0xCFFFFFD, .always⟩,
    ⟨.joyCtrl .p0, 0x0A10008, 0xCFFFFFF, .always⟩,
    ⟨.joyCtrl .p1, 0x0A1000A, 0xCFFFFFF, .always⟩,
    ⟨.joyCtrl .p2, 0x0A1000C, 0xCFFFFFF, .always⟩,
    ⟨.memmode,     0x0A11000, 0xCFFFFFF, .always⟩,
    ⟨.busreq,      0x0A11100, 0xCFFFFFF, .always⟩,
    ⟨.z80rst,      0x0A11200, 0xCFFFFFF, .always⟩,
    ⟨.vdpData,     0x0C00000, 0xCFFFFFD, .always⟩,
    ⟨.vdpCtrl,     0x0C00004, 0xCFFFFFD, .always⟩,
    ⟨.hv,          0x0C00008, 0xCFFFFFF, .always⟩,
    ⟨.psg,         0x0C00010, 0xCFFFFFF, .always⟩,
    ⟨.wram,        0x0E00000, 0xCE00000, .always⟩,
    ⟨.invalid,     0x0000000, 0xC000000, .always⟩ ]

/-- Primary-bus write rows, in the order given. -/
def writeTable : List (TableRow WriteRow) :=
  [ ⟨.rom,         0x4000000, 0xC000000, .belowRomSize⟩,
    ⟨.sramW,       0x7A00000, 0xFFFE000, .always⟩,
    ⟨.sramB,       0x4A00000, 0xCFFE000, .oneLane⟩,
    ⟨.sound,       0x4A04000, 0xCFFFFFD, .always⟩,
    ⟨.joyData .p0, 0x4A10002, 0xCFFFFFF, .always⟩,
    ⟨.joyData .p1, 0x4A10004, 0xCFFFFFF, .always⟩,
    ⟨.joyData .p2, 0x4A10006, 0xCFFFFFF, .always⟩,
    ⟨.joyCtrl .p0, 0x4A10008, 0xCFFFFFF, .always⟩,
    ⟨.joyCtrl .p1, 0x4A1000A, 0xCFFFFFF, .always⟩,
    ⟨.joyCtrl .p2, 0x4A1000C, 0xCFFFFFF, .always⟩,
    ⟨.memmode,     0x4A11000, 0xCFFFFFF, .always⟩,
    ⟨.busreq,      0x4A11100, 0xCFFFFFF, .always⟩,
    ⟨.z80rst,      0x4A11200, 0xCFFFFFF, .always⟩,
    ⟨.vdpData,     0x4C00000, 0xCFFFFFD, .always⟩,
    ⟨.vdpCtrl,     0x4C00004, 0xCFFFFFD, .always⟩,
    ⟨.hv,          0x4C00008, 0xCFFFFFF, .always⟩,
    ⟨.psg,         0x4C00010, 0xCFFFFFF, .always⟩,
    ⟨.wram,        0x4E00000, 0xCE00000, .always⟩,
    ⟨.invalid,     0x4000000, 0xC000000, .always⟩ ]

/-- Peek rows, in the order given. -/
def peekTable : List (TableRow PeekRow) :=
  [ ⟨.rom,     0xB000000, 0xF000000, .belowRomSize⟩,
    ⟨.wram,    0xBE00000, 0xFE00000, .always⟩,
    ⟨.invalid, 0xB000000, 0xF000000, .always⟩ ]

/-- Whether a row's condition holds for `T`. -/
def RowCondition.holds (romSize : Nat) (t : Descriptor) : RowCondition → Bool
  | .always => true
  | .belowRomSize => decide (t.addr.toNat < romSize)
  | .oneLane => t.h != t.l

/-- A row matches when `T AND mask = match` and its condition, if any, holds (R87). -/
def TableRow.fits {ρ : Type} (romSize : Nat) (t : Descriptor) (r : TableRow ρ) : Bool :=
  t &&& r.mask == r.pattern && r.condition.holds romSize t

/-- First match wins (R87, R101, R141); `default` where no row matches, which on a legal descriptor never happens,
since the last row of each table is its default row. -/
def firstMatch {ρ : Type} (romSize : Nat) (t : Descriptor) (default : ρ) : List (TableRow ρ) → ρ
  | [] => default
  | r :: rest => if r.fits romSize t then r.row else firstMatch romSize t default rest

/-- The row a primary-bus read selects. -/
def selectRead (romSize : Nat) (t : Descriptor) : ReadRow := firstMatch romSize t .invalid readTable

/-- The row a primary-bus write selects. -/
def selectWrite (romSize : Nat) (t : Descriptor) : WriteRow := firstMatch romSize t .invalid writeTable

/-- The row a peek selects. -/
def selectPeek (romSize : Nat) (t : Descriptor) : PeekRow := firstMatch romSize t .invalid peekTable

/-! ### From a row and its operands to the instruction -/

/-- The instruction of a read row. -/
def Instr.ofRead (lanes : Lanes) (a : Addr) : ReadRow → Instr
  | .rom => .rdRom lanes a
  | .sramW => .rdSramW a
  | .sramB => .rdSramB lanes a
  | .sound => .rdSound lanes a
  | .joy0Data => .rdJoy0Data lanes
  | .joy12Data => .rdJoy12Data lanes a
  | .joyCtrl .p0 => .rdJoyCtrl0 lanes
  | .joyCtrl .p1 => .rdJoyCtrl1 lanes
  | .joyCtrl .p2 => .rdJoyCtrl2 lanes
  | .memmode => .rdMemmode lanes
  | .busreq => .rdBusreq lanes
  | .z80rst => .rdZ80rst lanes
  | .vdpData => .rdVdpData lanes a
  | .vdpCtrl => .rdVdpCtrl lanes a
  | .hv => .rdHv lanes
  | .psg => .rdPsg lanes
  | .wram => .rdWram lanes a
  | .invalid => .rdInvalid lanes a

/-- The instruction of a write row. -/
def Instr.ofWrite (lanes : Lanes) (a : Addr) (v : Word) : WriteRow → Instr
  | .rom => .wrRom lanes a v
  | .sramW => .wrSramW a v
  | .sramB => .wrSramB lanes a v
  | .sound => .wrSound lanes a v
  | .joyData .p0 => .wrJoyData0 lanes v
  | .joyData .p1 => .wrJoyData1 lanes v
  | .joyData .p2 => .wrJoyData2 lanes v
  | .joyCtrl .p0 => .wrJoyCtrl0 lanes v
  | .joyCtrl .p1 => .wrJoyCtrl1 lanes v
  | .joyCtrl .p2 => .wrJoyCtrl2 lanes v
  | .memmode => .wrMemmode lanes v
  | .busreq => .wrBusreq lanes v
  | .z80rst => .wrZ80rst lanes v
  | .vdpData => .wrVdpData lanes a v
  | .vdpCtrl => .wrVdpCtrl lanes a v
  | .hv => .wrHv lanes v
  | .psg => .wrPsg lanes v
  | .wram => .wrWram lanes a v
  | .invalid => .wrInvalid lanes a v

/-- The instruction of a peek row. -/
def Instr.ofPeek (a : Addr) : PeekRow → Instr
  | .rom => .peekRom a
  | .wram => .peekWram a
  | .invalid => .peekInvalid a

/-- The instruction of a host operation (R91). -/
def HostOp.instr : HostOp → Instr
  | .init => .init
  | .reset => .reset
  | .installRom bytes length => .installRom bytes length
  | .setRomWriteable b => .setRomWriteable b
  | .setPal b => .setPal b
  | .setJapanese b => .setJapanese b
  | .runFrame scb iqc => .runFrame scb iqc
  | .stateSize => .stateSize

/-! ### The decoder -/

/-- The descriptors that spell no transaction (R86), by name. Where a peek write also asks for one lane or none, the
write is named (log 20). -/
inductive DecodeError where
  /-- `P = 0` with `H = 0` and `L = 0` -/
  | noLane
  /-- `P = 1` with `W = 1` -/
  | peekWrite
  /-- `P = 1` with `(H, L) != (1, 1)` -/
  | peekLanes
  deriving DecidableEq, Repr

/-- The decoder of R81, R86 and R87: total, refusing by name, needing only the request and `S.rom.size` (R93). -/
def decode (romSize : Nat) : Request → Except DecodeError Instr
  | .host op => .ok op.instr
  | .transaction t v =>
    match t.p, t.w, t.lanes? with
    | false, _, none => .error .noLane
    | false, false, some lanes => .ok (.ofRead lanes t.addr (selectRead romSize t))
    | false, true, some lanes => .ok (.ofWrite lanes t.addr v (selectWrite romSize t))
    | true, true, _ => .error .peekWrite
    | true, false, some .both => .ok (.ofPeek t.addr (selectPeek romSize t))
    | true, false, _ => .error .peekLanes

/-! ### The encoder -/

/-- The descriptor word of R80, `P` in bit 27 down to `A` in bits 23:0. -/
def descriptor (p w : Bool) (lanes : Lanes) (a : Addr) : Descriptor :=
  BitVec.ofBool p ++ BitVec.ofBool w ++ BitVec.ofBool lanes.h ++ BitVec.ofBool lanes.l ++ a

/-- A primary-bus read (R81). A read carries no `V` (R84). -/
def Request.read (lanes : Lanes) (a : Addr) : Request := .transaction (descriptor false false lanes a) 0

/-- A primary-bus write (R81). -/
def Request.write (lanes : Lanes) (a : Addr) (v : Word) : Request := .transaction (descriptor false true lanes a) v

/-- A peek, in its one legal form (R85). -/
def Request.peek (a : Addr) : Request := .transaction (descriptor true false .both a) 0

/-- The request that spells an instruction. -/
def encode : Instr → Request
  | .rdRom lanes a => .read lanes a
  | .rdSramW a => .read .both a
  | .rdSramB lanes a => .read lanes a
  | .rdSound lanes a => .read lanes a
  | .rdJoy0Data lanes => .read lanes 0xA10002
  | .rdJoy12Data lanes a => .read lanes a
  | .rdJoyCtrl0 lanes => .read lanes 0xA10008
  | .rdJoyCtrl1 lanes => .read lanes 0xA1000A
  | .rdJoyCtrl2 lanes => .read lanes 0xA1000C
  | .rdMemmode lanes => .read lanes 0xA11000
  | .rdBusreq lanes => .read lanes 0xA11100
  | .rdZ80rst lanes => .read lanes 0xA11200
  | .rdVdpData lanes a => .read lanes a
  | .rdVdpCtrl lanes a => .read lanes a
  | .rdHv lanes => .read lanes 0xC00008
  | .rdPsg lanes => .read lanes 0xC00010
  | .rdWram lanes a => .read lanes a
  | .rdInvalid lanes a => .read lanes a
  | .wrRom lanes a v => .write lanes a v
  | .wrSramW a v => .write .both a v
  | .wrSramB lanes a v => .write lanes a v
  | .wrSound lanes a v => .write lanes a v
  | .wrJoyData0 lanes v => .write lanes 0xA10002 v
  | .wrJoyData1 lanes v => .write lanes 0xA10004 v
  | .wrJoyData2 lanes v => .write lanes 0xA10006 v
  | .wrJoyCtrl0 lanes v => .write lanes 0xA10008 v
  | .wrJoyCtrl1 lanes v => .write lanes 0xA1000A v
  | .wrJoyCtrl2 lanes v => .write lanes 0xA1000C v
  | .wrMemmode lanes v => .write lanes 0xA11000 v
  | .wrBusreq lanes v => .write lanes 0xA11100 v
  | .wrZ80rst lanes v => .write lanes 0xA11200 v
  | .wrVdpData lanes a v => .write lanes a v
  | .wrVdpCtrl lanes a v => .write lanes a v
  | .wrHv lanes v => .write lanes 0xC00008 v
  | .wrPsg lanes v => .write lanes 0xC00010 v
  | .wrWram lanes a v => .write lanes a v
  | .wrInvalid lanes a v => .write lanes a v
  | .peekRom a => .peek a
  | .peekWram a => .peek a
  | .peekInvalid a => .peek a
  | .init => .host .init
  | .reset => .host .reset
  | .installRom bytes length => .host (.installRom bytes length)
  | .setRomWriteable b => .host (.setRomWriteable b)
  | .setPal b => .host (.setPal b)
  | .setJapanese b => .host (.setJapanese b)
  | .runFrame scb iqc => .host (.runFrame scb iqc)
  | .stateSize => .host .stateSize

/-! ### Assembler forms (R89) and the descriptor's bits for the host -/

/-- `RD.W a` -/
def Request.rdW (a : Addr) : Request := .read .both a
/-- `RD.H a` -/
def Request.rdH (a : Addr) : Request := .read .high a
/-- `RD.L a` -/
def Request.rdL (a : Addr) : Request := .read .low a
/-- `WR.W a, v` -/
def Request.wrW (a : Addr) (v : Word) : Request := .write .both a v
/-- `WR.H a, v` -/
def Request.wrH (a : Addr) (v : Word) : Request := .write .high a v
/-- `WR.L a, v` -/
def Request.wrL (a : Addr) (v : Word) : Request := .write .low a v

/-- A transaction from the bits of its words: the descriptor in bits 27:0, bits 31:28 zero, the data operand `V` in
bits 47:32, nothing above. The place of `V` is the model's (log 2). -/
def requestOfBits (nbits w : Nat) : Option Request :=
  let bits := w % 2 ^ nbits
  if bits / 2 ^ 28 % 16 = 0 ∧ bits / 2 ^ 48 = 0 then
    some (.transaction (BitVec.ofNat 28 bits) (BitVec.ofNat 16 (bits / 2 ^ 32)))
  else none

/-- The ROM size under which a bare word is decoded, `S.rom.size` being the one input of the decoder that is not in the
word (R93): a ROM that fills the default capacity, so that the ROM rows are reached (log 2). -/
def tableRomSize : Nat := defaultRomCapacity

/-- The instruction the decoder reads from an instruction whose bits are `w`. -/
def decodeTableWord (nbits w : Nat) : Option Instr :=
  match requestOfBits nbits w with
  | none => none
  | some r =>
    match decode tableRomSize r with
    | .ok i => some i
    | .error _ => none

end Sys2Proof
end

