-- ==== Sys2Proof/Machine/State.lean ====
section
/-! DEFINITION. The machine-state aggregate `S` of 10_state.md R20, the sequencer position R34, the parameters, the model's
own fields, the reset state, and the reasons a step can stop. -/

namespace Sys2Proof.Machine

/-- What an index that lists no cell reads as (log 14). -/
inductive Fill where
  /-- `0x00`, as `INIT` leaves it (10_state.md R39) -/
  | zero
  /-- a free byte for each index, as an `INIT` with `INIT_ZEROES_STORE = false` leaves it; `seed` numbers the draw -/
  | drawn (seed : Nat)
  deriving DecidableEq, Repr

/-- One storage array (a "flat byte array", 00_scope.md R2) as the cells that differ from the fill, indices strictly
rising; its canonical form is `Memory.wf` (log 15). -/
structure Memory where
  fill  : Fill
  cells : List Host.Cell
  deriving DecidableEq, Repr

/-- The ROM of 10_state.md R20: buffer (R21), bytes loaded (R22), and the flag that no rule reads (R23). -/
structure Rom where
  buffer    : Memory
  size      : Nat
  writeable : Bool
  deriving DecidableEq, Repr

/-- One joypad port's registers (10_state.md R26, R28, R29). -/
structure JoyPort where
  control : Byte
  data    : Byte
  deriving DecidableEq, Repr

/-- The three ports (10_state.md R26). -/
structure Joypads where
  p0 : JoyPort
  p1 : JoyPort
  p2 : JoyPort
  deriving DecidableEq, Repr

/-- The video processor's state, "opaque to this core" (10_state.md R32): a token that every facade call replaces by a
free value (log 7). -/
structure Vdp where
  token : Nat
  deriving DecidableEq, Repr

/-- The access kind of an `InvalidAddress` (60_exceptions.md R281). -/
inductive AccessKind where
  /-- primary-bus read -/
  | R
  /-- primary-bus write -/
  | W
  /-- peek -/
  | P
  deriving DecidableEq, Repr

/-- The access kind of a `BusWidth` (60_exceptions.md R282). -/
inductive BusKind where
  | R
  | W
  deriving DecidableEq, Repr

/-- A diagnostic event: the taxonomy of 60_exceptions.md R281 to R284. -/
inductive Diag where
  | invalidAddress (kind : AccessKind) (a : Addr)
  | busWidth (kind : BusKind) (a : Addr)
  | romWrite (a : Addr)
  | oversizedRom (length : Nat)
  deriving DecidableEq, Repr

/-- The sequencer's position `(phase, line, unit, sub)` (10_state.md R34, 44_frame_driver.md R240). `sub` is 0 (false)
or 1 (true); outside `LINES` the other components are "-". -/
inductive Position where
  | lines (line unit : Nat) (sub : Bool)
  | vint
  | done
  deriving DecidableEq, Repr

/-- The two interrupt levels the block raises (60_exceptions.md R288). -/
inductive IntLevel where
  /-- horizontal, level 4 -/
  | level4
  /-- vertical, level 6 -/
  | level6
  deriving DecidableEq, Repr

/-- The level number the CPU receives (R288). -/
def IntLevel.number : IntLevel → Nat
  | .level4 => 4
  | .level6 => 6

/-- A call of the block into an outside agent (the external operations of 00_scope.md R11), or a transaction or peek
served inside such a call. The model's own record (log 8). -/
inductive Event where
  | cpuStep
  | cpuInterrupt (level : IntLevel)
  | cpuReset
  | vdpInit
  | vdpReadData (w : Word)
  | vdpReadCtrl (w : Word)
  | vdpWriteData (v : Word) (lanes : Lanes)
  | vdpWriteCtrl (v : Word) (lanes : Lanes)
  | vdpRender (line : Nat) (scanlineCallback : Handle)
  | scanline (callback : Handle) (line : Nat) (image : Image)
  | vdpHintEnabled (answer : Bool)
  | vdpVintEnabled (answer : Bool)
  | query (callback : Option Handle) (button : Button) (token : Nat) (pressed : Bool)
  | cpuRead (lanes : Lanes) (a : Addr) (w : Word)
  | cpuWrite (lanes : Lanes) (a : Addr) (v : Word)
  | peeked (a : Addr) (w : Word)
  deriving DecidableEq, Repr

/-- What a request answers to its issuer (log 9). -/
inductive Result where
  | nothing
  | word (w : Word)
  | size (n : Nat)
  deriving DecidableEq, Repr

/-- What the outside agents answer next (log 6). Each script is used up from its front; an empty one gives free
values, numbered by `drawn` (log 5). -/
structure Env where
  /-- answers of the input oracle (42_joypad.md R192) -/
  queries  : List Bool
  /-- results of `vdp_read_data()` and `vdp_read_ctrl()` (D9) -/
  vdpWords : List Word
  /-- answers of `vdp_hint_enabled()` and `vdp_vint_enabled()` (10_state.md R32) -/
  vdpFlags : List Bool
  /-- transactions issued inside each CPU call (00_scope.md R12) -/
  cpuWork  : List (List BusRequest)
  /-- addresses peeked inside each `vdp_write_ctrl` call (D39) -/
  peekWork : List (List Addr)
  /-- pixels of the lines to be rendered (45_lifecycle.md R267) -/
  images   : List Image
  /-- how many free values have been taken -/
  drawn    : Nat
  deriving DecidableEq, Repr

/-- The machine. The fields from `rom` to `diag` are the aggregate of 10_state.md R20; `seq` is the position of R34,
present only while a frame runs; `cfg` holds the parameters of 00_scope.md R10; the rest are the model's own. -/
structure State where
  cfg          : Params
  rom          : Rom
  workRam      : Memory
  secondaryRam : Memory
  joypads      : Joypads
  pal          : Bool
  japanese     : Bool
  vdp          : Vdp
  diag         : List Diag
  seq          : Option Position
  /-- whether `INIT` has run (log 10) -/
  initialised  : Bool
  /-- the requests still to be served, next first (log 1) -/
  pending      : List Request
  /-- the answer to the last request served (log 9) -/
  result       : Result
  env          : Env
  /-- calls to outside agents, oldest first (log 8) -/
  trace        : List Event
  deriving DecidableEq, Repr

/-- The block raises no trap, fault or exception (60_exceptions.md R280), so no step ends in a fault: a type with no
constructor (log 12). -/
inductive Fault where
  deriving DecidableEq, Repr

/-- Why no step exists. -/
inductive Refusal where
  /-- An arm of `exec` whose instruction has no meaning in the model; no arm raises it now. Safe. -/
  | notModelled (mnemonic : String)
  /-- Raised by `step` when no request is pending: there is nothing to serve (log 1). Safe. -/
  | noRequest
  /-- Raised by `step`: a primary-bus descriptor with `H = L = 0` (30_encoding.md R86). Safe. -/
  | noLane
  /-- Raised by `step`: a peek descriptor with `W = 1` (30_encoding.md R86). Safe. -/
  | peekWrite
  /-- Raised by `step`: a peek descriptor without both lanes (30_encoding.md R86). Safe. -/
  | peekLanes
  /-- Raised by every host operation while a frame runs: a callback re-entered the emulator (45_lifecycle.md R269, D19).
  Safe. -/
  | reentered
  /-- Raised by `INIT` when `INIT` has run (70_reset_and_hazards.md R320, D19). Safe. -/
  | secondInit
  /-- Raised by `RESET` and `RUN_FRAME` before `INIT` (N24, D19). Safe. -/
  | notInitialised
  /-- Raised by `INSTALL_ROM` when `length` is larger than the host buffer it names (I20). Safe. -/
  | romBufferTooShort
  deriving DecidableEq, Repr

/-- An array that lists nothing and reads 0 everywhere. -/
def Memory.zeroes : Memory := { fill := .zero, cells := [] }

/-- A port as `INIT` leaves it (R39). -/
def JoyPort.cleared : JoyPort := { control := 0, data := 0 }

/-- No script: every answer is a free value. -/
def Env.free : Env :=
  { queries := [], vdpWords := [], vdpFlags := [], cpuWork := [], peekWork := [], images := [], drawn := 0 }

/-- The machine after `INIT` and after `RESET` (10_state.md R39, R40): the aggregate's values are R39's with
`INIT_ZEROES_STORE = true`, its default; the parameters are `Params.standard` (log 4); the VDP token is a DESIGN CHOICE
(log 7); nothing is pending, answered, scripted or recorded (logs 1, 3, 6, 8, 9). -/
def State.reset : State where
  cfg := Params.standard
  rom := { buffer := Memory.zeroes, size := 0, writeable := false }
  workRam := Memory.zeroes
  secondaryRam := Memory.zeroes
  joypads := { p0 := JoyPort.cleared, p1 := JoyPort.cleared, p2 := JoyPort.cleared }
  pal := false
  japanese := false
  vdp := { token := 0 }
  diag := []
  seq := none
  initialised := true
  pending := []
  result := .nothing
  env := Env.free
  trace := []

end Sys2Proof.Machine
end

