-- ==== Sys2Proof/Machine/Memory.lean ====
section
/-! DEFINITION. The named operations over one storage array: reading and writing a byte, copying bytes in, and the canonical
form (10_state.md R21, R24, R25; logs 14 and 15). -/

namespace Sys2Proof.Machine

/-- The byte an index holds that lists no cell: `0x00`, or the free byte of that index (10_state.md R39). -/
def Fill.byteAt : Fill → Nat → Byte
  | .zero, _ => 0
  | .drawn seed, i => Config.freeStoreByte seed i

/-- What an unlisted index of an array reads as. -/
def Memory.unlisted (m : Memory) (i : Nat) : Byte := m.fill.byteAt i

/-- The byte listed for an index. -/
def lookupCell (i : Nat) : List Host.Cell → Option Byte
  | [] => none
  | (k, b) :: rest => if k = i then some b else lookupCell i rest

/-- The cells with index `i` set to `b`, kept rising. -/
def insertCell (i : Nat) (b : Byte) : List Host.Cell → List Host.Cell
  | [] => [(i, b)]
  | (k, c) :: rest =>
    if i < k then (i, b) :: (k, c) :: rest
    else if i = k then (i, b) :: rest
    else (k, c) :: insertCell i b rest

/-- The cells without index `i`. -/
def eraseCell (i : Nat) : List Host.Cell → List Host.Cell
  | [] => []
  | (k, c) :: rest => if k = i then rest else (k, c) :: eraseCell i rest

/-- `S.<array>[i]` -/
def Memory.read (m : Memory) (i : Nat) : Byte := (lookupCell i m.cells).getD (m.unlisted i)

/-- `S.<array>[i] <- b`, keeping the canonical form. -/
def Memory.write (m : Memory) (i : Nat) (b : Byte) : Memory :=
  if b = m.unlisted i then { m with cells := eraseCell i m.cells }
  else { m with cells := insertCell i b m.cells }

/-- `for k in 0 ..: S.<array>[i + k] <- bytes[k]` -/
def Memory.copyIn (m : Memory) (i : Nat) : List Byte → Memory
  | [] => m
  | b :: rest => (m.write i b).copyIn (i + 1) rest

/-- Indices strictly rising, all at least `low`. -/
def risingFrom (low : Nat) : List Host.Cell → Bool
  | [] => true
  | (k, _) :: rest => decide (low ≤ k) && risingFrom (k + 1) rest

/-- The canonical form of an array of `size` bytes: indices strictly rising and below `size`, and no cell equal to what
an unlisted index reads as. -/
def Memory.wf (size : Nat) (m : Memory) : Bool :=
  risingFrom 0 m.cells && m.cells.all fun c => decide (c.1 < size) && c.2 != m.unlisted c.1

end Sys2Proof.Machine
end

