-- ==== Sys2Proof/Machine/Operands.lean ====
section
/-! DEFINITION. Every operand form: lane masks, byte order, and the index arithmetic of 30_encoding.md R92. -/

namespace Sys2Proof.Machine

/-- The high lane, bits 15:8. -/
def highByte (w : Word) : Byte := w.extractLsb' 8 8

/-- The low lane, bits 7:0. -/
def lowByte (w : Word) : Byte := w.extractLsb' 0 8

/-- `hi ++ lo`: the high lane is the byte at the lower address (20_memory.md R52). -/
def joinBytes (hi lo : Byte) : Word := hi ++ lo

/-- `lanemask(H, L)` (40_bus_read.md R100). -/
def laneMask (lanes : Lanes) : Word :=
  (if lanes.h then 0xFF00#16 else 0#16) ||| (if lanes.l then 0x00FF#16 else 0#16)

/-- A word whose requested lanes hold the given bytes and whose other lanes hold 0 (20_memory.md R51). -/
def laneWord (lanes : Lanes) (hi lo : Byte) : Word :=
  joinBytes (if lanes.h then hi else 0) (if lanes.l then lo else 0)

/-- Work RAM, high lane: `(A + 0) AND 0xFFFF`. -/
def workHigh (a : Addr) : Nat := a.toNat % 0x10000

/-- Work RAM, low lane: `(A + 1) AND 0xFFFF`. -/
def workLow (a : Addr) : Nat := (a.toNat + 1) % 0x10000

/-- Secondary RAM, high lane: `(off + 0) mod 0x2000` with `off = A - 0xA00000`. -/
def secondaryHigh (a : Addr) : Nat := (a.toNat - 0xA00000) % 0x2000

/-- Secondary RAM, low lane: `(off + 1) mod 0x2000`. -/
def secondaryLow (a : Addr) : Nat := (a.toNat - 0xA00000 + 1) % 0x2000

/-- ROM, high lane: `A`, unmasked. -/
def romHigh (a : Addr) : Nat := a.toNat

/-- ROM, low lane: `A + 1`, unmasked. -/
def romLow (a : Addr) : Nat := a.toNat + 1

/-- The port with index `n`; the indices are 0, 1 and 2 (R92). -/
def portOfIndex : Nat → Port
  | 0 => .p0
  | 1 => .p1
  | _ => .p2

/-- Joypad data port index: `n = (A - 0xA10002) / 2`. -/
def dataPort (a : Addr) : Port := portOfIndex ((a.toNat - 0xA10002) / 2)

/-- Joypad control port index: `n = (A - 0xA10008) / 2`. -/
def controlPort (a : Addr) : Port := portOfIndex ((a.toNat - 0xA10008) / 2)

/-- A host integer as a flag: non-zero means true (30_encoding.md R91). -/
def hostFlag (b : Int) : Bool := b != 0

/-- `S.joypads[n]` -/
def Joypads.get (j : Joypads) : Port → JoyPort
  | .p0 => j.p0
  | .p1 => j.p1
  | .p2 => j.p2

/-- `S.joypads[n] <- p` -/
def Joypads.set (j : Joypads) (n : Port) (p : JoyPort) : Joypads :=
  match n with
  | .p0 => { j with p0 := p }
  | .p1 => { j with p1 := p }
  | .p2 => { j with p2 := p }

end Sys2Proof.Machine
end

