-- ==== Sys2Proof/Machine/Flags.lean ====
section
/-! DEFINITION. The block has no status flags (10_state.md R37). This file holds its three condition inputs instead: the
timing standard `S.pal` with the budget it selects (44_frame_driver.md R231, R232), the TH bit of port 0
(10_state.md R29), and the button groups TH selects (42_joypad.md R182, R184). The third, the VDP's two flags, are
facade calls and stand in Ops.lean. -/

namespace Sys2Proof.Machine

/-- `FPS(pal)`: 50 when `S.pal` is true and 60 otherwise (R231). -/
def framesPerSecond (pal : Bool) : Nat := if pal then 50 else 60

/-- `MCLK(pal)`: `MCLK_PAL` when `S.pal` is true and `MCLK_NTSC` otherwise (R231). -/
def masterClock (p : Params) (pal : Bool) : Nat := if pal then p.mclkPal else p.mclkNtsc

/-- `Units(pal) = MCLK(pal) / FPS(pal) / LINES_PER_FRAME / CPU_DIV / 2`, floor division of naturals (R232). -/
def units (p : Params) (pal : Bool) : Nat :=
  masterClock p pal / framesPerSecond pal / p.linesPerFrame / p.cpuDiv / 2

/-- Bit 6 of a stored `data` byte, the TH select (10_state.md R29, 90_conflicts.md C1). -/
def thBit (data : Byte) : Bool := data.getLsbD 6

/-- Group 1, read when `data[6] = 1`: each button with its bit (42_joypad.md R182). -/
def group1 : List (Button × Nat) :=
  [(.c, 5), (.b, 4), (.right, 3), (.left, 2), (.down, 1), (.up, 0)]

/-- Group 0, read when `data[6] = 0`: each button with its bit (42_joypad.md R184). -/
def group0 : List (Button × Nat) :=
  [(.start, 5), (.a, 4), (.down, 1), (.up, 0)]

/-- One button's line: active-low, 0 when pressed and 1 when released, at its bit (42_joypad.md R185). -/
def buttonLine (pressed : Bool) (bit : Nat) : Byte := if pressed then 0 else 1#8 <<< bit

end Sys2Proof.Machine
end

