-- ==== Sys2Proof/Machine/Ops.lean ====
section
/-! DEFINITION. The named operations over the state: field updates, diagnostics, free values, the calls to the outside
agents (00_scope.md R11, R12), and the interrupt request. The block takes no exception and returns from none
(60_exceptions.md R280, R292, R293): raising a diagnostic and requesting an interrupt are the operations it has in
their place. -/

namespace Sys2Proof.Machine

/-! ### Field updates -/

/-- `raise Kind(info)`: append one diagnostic; execution continues (00_scope.md R11, 60_exceptions.md R280). -/
def State.raise (s : State) (d : Diag) : State := { s with diag := s.diag ++ [d] }

/-- Record a call to an outside agent, or a transaction or peek served inside one. -/
def State.emit (s : State) (e : Event) : State := { s with trace := s.trace ++ [e] }

/-- Move the sequencer's position. -/
def State.moveTo (s : State) (p : Option Position) : State := { s with seq := p }

/-- Answer the request's issuer. -/
def State.answer (s : State) (r : Result) : State := { s with result := r }

/-- Replace what the outside agents do next. -/
def State.setEnv (s : State) (e : Env) : State := { s with env := e }

/-- Replace the video processor's state. -/
def State.setVdp (s : State) (v : Vdp) : State := { s with vdp := v }

/-- `S.work_ram[i] <- b` -/
def State.writeWork (s : State) (i : Nat) (b : Byte) : State := { s with workRam := s.workRam.write i b }

/-- `S.secondary_ram[i] <- b` -/
def State.writeSecondary (s : State) (i : Nat) (b : Byte) : State :=
  { s with secondaryRam := s.secondaryRam.write i b }

/-- `S.joypads[n] <- p` -/
def State.setPort (s : State) (n : Port) (p : JoyPort) : State := { s with joypads := s.joypads.set n p }

/-- `S.rom <- r` -/
def State.setRom (s : State) (r : Rom) : State := { s with rom := r }

/-! ### Draws -/

/-- The state after taking one free value. -/
def State.drew (s : State) : State := s.setEnv { s.env with drawn := s.env.drawn + 1 }

/-- `draw u8` (00_scope.md R11). -/
def drawByte (s : State) : Byte × State := (Config.freeByte s.env.drawn, s.drew)

/-- The oracle's next answer: each is a fresh draw (42_joypad.md R192). -/
def drawQuery (s : State) : Bool × State :=
  match s.env.queries with
  | q :: rest => (q, s.setEnv { s.env with queries := rest })
  | [] => (Config.freeBool s.env.drawn, s.drew)

/-- The next word of a VDP port read (D9). -/
def drawVdpWord (s : State) : Word × State :=
  match s.env.vdpWords with
  | w :: rest => (w, s.setEnv { s.env with vdpWords := rest })
  | [] => (Config.freeWord s.env.drawn, s.drew)

/-- The next answer of an interrupt-enable flag (10_state.md R32). -/
def drawVdpFlag (s : State) : Bool × State :=
  match s.env.vdpFlags with
  | f :: rest => (f, s.setEnv { s.env with vdpFlags := rest })
  | [] => (Config.freeBool s.env.drawn, s.drew)

/-- The transactions of the next CPU call (00_scope.md R12). -/
def drawCpuWork (s : State) : List BusRequest × State :=
  match s.env.cpuWork with
  | w :: rest => (w, s.setEnv { s.env with cpuWork := rest })
  | [] => (Config.freeCpuWork s.env.drawn, s.drew)

/-- The peeks of the next control-port write (D39). -/
def drawPeekWork (s : State) : List Addr × State :=
  match s.env.peekWork with
  | w :: rest => (w, s.setEnv { s.env with peekWork := rest })
  | [] => (Config.freePeekWork s.env.drawn, s.drew)

/-- The pixels of the next rendered line (I27). -/
def drawImage (s : State) : Image × State :=
  match s.env.images with
  | i :: rest => (i, s.setEnv { s.env with images := rest })
  | [] => (Config.freeImage s.env.drawn, s.drew)

/-! ### Facade calls whose answers this block uses (D9, R32) -/

/-- A facade call's effect on `S.vdp`: not specified (00_scope.md R12), so a free value. -/
def touchVdp (s : State) : State := (s.setVdp { token := Config.freeVdp s.env.drawn }).drew

/-- `vdp_init()` -/
def vdpInit (s : State) : State := touchVdp (s.emit .vdpInit)

/-- `vdp_read_data()` -/
def vdpReadData (s : State) : Word × State :=
  let d := drawVdpWord s
  (d.1, touchVdp (d.2.emit (.vdpReadData d.1)))

/-- `vdp_read_ctrl()` -/
def vdpReadCtrl (s : State) : Word × State :=
  let d := drawVdpWord s
  (d.1, touchVdp (d.2.emit (.vdpReadCtrl d.1)))

/-- `vdp_write_data(V, H, L)`; it receives no peek callback (41_bus_write.md R151). -/
def vdpWriteData (v : Word) (lanes : Lanes) (s : State) : State := touchVdp (s.emit (.vdpWriteData v lanes))

/-- `vdp_hint_enabled()` -/
def vdpHintEnabled (s : State) : Bool × State :=
  let d := drawVdpFlag s
  (d.1, touchVdp (d.2.emit (.vdpHintEnabled d.1)))

/-- `vdp_vint_enabled()` -/
def vdpVintEnabled (s : State) : Bool × State :=
  let d := drawVdpFlag s
  (d.1, touchVdp (d.2.emit (.vdpVintEnabled d.1)))

/-- `vdp_render(line, scanline_callback)`: the facade renders the line and calls the host's callback with that line's
pixels (44_frame_driver.md R235, 45_lifecycle.md R267; log 17). It issues no transaction (00_scope.md R12, log 16). -/
def vdpRender (line : Nat) (scanlineCallback : Handle) (s : State) : State :=
  let d := drawImage (s.emit (.vdpRender line scanlineCallback))
  touchVdp (d.2.emit (.scanline scanlineCallback line d.1))

/-! ### The input oracle (42_joypad.md R181, R192) -/

/-- `query(b)`: ask the host's callback with the button's token. `callback` is the callback of the running frame, none
outside one (log 13). -/
def query (callback : Option Handle) (button : Button) (s : State) : Bool × State :=
  let d := drawQuery s
  (d.1, d.2.emit (.query callback button (s.cfg.buttonIds.token button) d.1))

end Sys2Proof.Machine
end

