-- ==== Sys2Proof/Machine/Joypad.lean ====
section
/-! DEFINITION. The joypad port controller: 42_joypad.md R180 to R193. -/

namespace Sys2Proof.Machine

/-- The button term of a group: each of its buttons queried once, its line ORed in at its bit (42_joypad.md R182, R184,
R185, R186; the order is the table's, R187, log 22). -/
def buttonTerm (callback : Option Handle) : List (Button × Nat) → State → Byte × State
  | [], s => (0, s)
  | (button, bit) :: rest, s =>
    let q := query callback button s
    let r := buttonTerm callback rest q.2
    (buttonLine q.1 bit ||| r.1, r.2)

/-- The group the stored `data` of port 0 selects (42_joypad.md R183). -/
def selectedGroup (data : Byte) : List (Button × Nat) := if thBit data then group1 else group0

/-- `JoyRead0() = d OR t` (42_joypad.md R183): `control` is not read. -/
def joyRead0 (callback : Option Handle) (s : State) : Byte × State :=
  let t := buttonTerm callback (selectedGroup s.joypads.p0.data) s
  (s.joypads.p0.data ||| t.1, t.2)

/-- `JoyReadCtrl(n)` (42_joypad.md R190). -/
def joyReadCtrl (n : Port) (s : State) : Byte := (s.joypads.get n).control

/-- `JoyWriteData(n, b)`: `data <- b AND control` (42_joypad.md R188, D6, 90_conflicts.md C7). -/
def joyWriteData (n : Port) (b : Byte) (s : State) : State :=
  let p := s.joypads.get n
  s.setPort n { p with data := b &&& p.control }

/-- `JoyWriteCtrl(n, b)`: `control <- b`; `data` is not re-masked (42_joypad.md R189). -/
def joyWriteCtrl (n : Port) (b : Byte) (s : State) : State :=
  let p := s.joypads.get n
  s.setPort n { p with control := b }

end Sys2Proof.Machine
end

