-- ==== Sys2Proof/Machine/Peek.lean ====
section
/-! DEFINITION. The video processor's peek decoder (43_vdp_peek.md R210 to R215), the ROM read that it shares with the
primary bus, and the control-port write inside which peeks happen (41_bus_write.md R152). -/

namespace Sys2Proof.Machine

/-- The low byte of a ROM word: `(A + 1 < ROM_CAPACITY) ? S.rom.buffer[A + 1] : draw u8` (40_bus_read.md R102, D13). -/
def romLowByte (a : Addr) (s : State) : Byte × State :=
  if romLow a < s.cfg.romCapacity then (s.rom.buffer.read (romLow a), s) else drawByte s

/-- A ROM read: the high lane is `S.rom.buffer[A]`, the low lane as `romLowByte`, only where requested
(40_bus_read.md R102; 43_vdp_peek.md R211 with both lanes). -/
def romWord (lanes : Lanes) (a : Addr) (s : State) : Word × State :=
  let low := if lanes.l then romLowByte a s else (0, s)
  (laneWord lanes (s.rom.buffer.read (romHigh a)) low.1, low.2)

/-- A work-RAM read: each lane masked to 16 bits separately (40_bus_read.md R116, 43_vdp_peek.md R212). -/
def workWord (lanes : Lanes) (a : Addr) (s : State) : Word :=
  laneWord lanes (s.workRam.read (workHigh a)) (s.workRam.read (workLow a))

/-- `PEEK_ROM` (43_vdp_peek.md R211). -/
def peekRom (a : Addr) (s : State) : Word × State := romWord .both a s

/-- `PEEK_WRAM` (43_vdp_peek.md R212). -/
def peekWram (a : Addr) (s : State) : Word × State := (workWord .both a s, s)

/-- `PEEK_INVALID` (43_vdp_peek.md R213). -/
def peekInvalid (a : Addr) (s : State) : Word × State := (0, s.raise (.invalidAddress .P a))

/-- The rule of a peek row. -/
def peekRow (a : Addr) (s : State) : PeekRow → Word × State
  | .rom => peekRom a s
  | .wram => peekWram a s
  | .invalid => peekInvalid a s

/-- `Peek(A) -> u16` (43_vdp_peek.md R210): decode with the peek table, perform the row. -/
def peek (a : Addr) (s : State) : Word × State :=
  peekRow a s (selectPeek s.rom.size (descriptor true false .both a))

/-- The peeks of one control-port write, in the order issued, each completing before the next (R12, D39). -/
def runPeeks : List Addr → State → State
  | [], s => s
  | a :: rest, s =>
    let r := peek a s
    runPeeks rest (r.2.emit (.peeked a r.1))

/-- `vdp_write_ctrl(V, H, L, Peek)`: one facade call, inside which any number of peeks (41_bus_write.md R152). -/
def vdpWriteCtrl (v : Word) (lanes : Lanes) (s : State) : State :=
  let d := drawPeekWork (s.emit (.vdpWriteCtrl v lanes))
  touchVdp (runPeeks d.1 d.2)

end Sys2Proof.Machine
end

