-- ==== Sys2Proof/Machine/Read.lean ====
section
/-! DEFINITION. The primary-bus read decoder: 40_bus_read.md R100 to R118. Each row's rule answers the word and the state
after; `callback` is the input-query callback of the running frame, which only a joypad read uses. -/

namespace Sys2Proof.Machine

/-- `RD_ROM` (R102). -/
def rdRom (lanes : Lanes) (a : Addr) (s : State) : Word × State := romWord lanes a s

/-- `RD_SRAM_W` (R103): a protocol error; no byte is read. -/
def rdSramW (a : Addr) (s : State) : Word × State := (0, s.raise (.busWidth .R a))

/-- `RD_SRAM_B` (R104): the byte of the one requested lane. -/
def rdSramB (lanes : Lanes) (a : Addr) (s : State) : Word × State :=
  if lanes.h then (joinBytes (s.secondaryRam.read (secondaryHigh a)) 0, s)
  else (joinBytes 0 (s.secondaryRam.read (secondaryLow a)), s)

/-- `RD_SOUND` (R105), a stub. -/
def rdSound (s : State) : Word × State := (0, s)

/-- `RD_JOY0_DATA` (R106): queries only when the low lane is requested. -/
def rdJoy0Data (callback : Option Handle) (lanes : Lanes) (s : State) : Word × State :=
  if lanes.l then
    let r := joyRead0 callback s
    (joinBytes 0 r.1, r.2)
  else (0, s)

/-- `RD_JOY12_DATA` (R107), a stub that reads all-ones in the requested lanes. -/
def rdJoy12Data (lanes : Lanes) (s : State) : Word × State := (0xFFFF &&& laneMask lanes, s)

/-- `RD_JOY_CTRL` (R108). -/
def rdJoyCtrl (n : Port) (lanes : Lanes) (s : State) : Word × State :=
  if lanes.l then (joinBytes 0 (joyReadCtrl n s), s) else (0, s)

/-- `RD_MEMMODE` (R109), a stub. -/
def rdMemmode (s : State) : Word × State := (0, s)

/-- `RD_BUSREQ` (R110), a stub. -/
def rdBusreq (s : State) : Word × State := (0, s)

/-- `RD_Z80RST` (R111), a stub. -/
def rdZ80rst (s : State) : Word × State := (0, s)

/-- `RD_VDP_DATA` (R112): one facade call, its result masked to the requested lanes. -/
def rdVdpData (lanes : Lanes) (s : State) : Word × State :=
  let r := vdpReadData s
  (r.1 &&& laneMask lanes, r.2)

/-- `RD_VDP_CTRL` (R113): one facade call, its result masked to the requested lanes. -/
def rdVdpCtrl (lanes : Lanes) (s : State) : Word × State :=
  let r := vdpReadCtrl s
  (r.1 &&& laneMask lanes, r.2)

/-- `RD_HV` (R114), a stub that does not track the scanline position. -/
def rdHv (s : State) : Word × State := (0, s)

/-- `RD_PSG` (R115), a stub. -/
def rdPsg (s : State) : Word × State := (0, s)

/-- `RD_WRAM` (R116). -/
def rdWram (lanes : Lanes) (a : Addr) (s : State) : Word × State := (workWord lanes a s, s)

/-- `RD_INVALID` (R117), the default row. -/
def rdInvalid (a : Addr) (s : State) : Word × State := (0, s.raise (.invalidAddress .R a))

/-- The rule of a read row. -/
def readRow (callback : Option Handle) (lanes : Lanes) (a : Addr) (s : State) : ReadRow → Word × State
  | .rom => rdRom lanes a s
  | .sramW => rdSramW a s
  | .sramB => rdSramB lanes a s
  | .sound => rdSound s
  | .joy0Data => rdJoy0Data callback lanes s
  | .joy12Data => rdJoy12Data lanes s
  | .joyCtrl n => rdJoyCtrl n lanes s
  | .memmode => rdMemmode s
  | .busreq => rdBusreq s
  | .z80rst => rdZ80rst s
  | .vdpData => rdVdpData lanes s
  | .vdpCtrl => rdVdpCtrl lanes s
  | .hv => rdHv s
  | .psg => rdPsg s
  | .wram => rdWram lanes a s
  | .invalid => rdInvalid a s

/-- `BusRead(A, H, L) -> u16` (R100): the first read row that matches, performed. -/
def busRead (callback : Option Handle) (lanes : Lanes) (a : Addr) (s : State) : Word × State :=
  readRow callback lanes a s (selectRead s.rom.size (descriptor false false lanes a))

/-- A read or a peek presented as a request: its word answers the issuer. -/
def answerWord (r : Word × State) : Host.Outcome State Fault Refusal := .next (r.2.answer (.word r.1))

/-- `RD_ROM` -/
def execRdRom (lanes : Lanes) (a : Addr) (s : State) : Host.Outcome State Fault Refusal :=
  answerWord (rdRom lanes a s)

/-- `RD_SRAM_W` -/
def execRdSramW (a : Addr) (s : State) : Host.Outcome State Fault Refusal := answerWord (rdSramW a s)

/-- `RD_SRAM_B` -/
def execRdSramB (lanes : Lanes) (a : Addr) (s : State) : Host.Outcome State Fault Refusal :=
  answerWord (rdSramB lanes a s)

/-- `RD_SOUND`: either address, any lanes. -/
def execRdSound (_lanes : Lanes) (_a : Addr) (s : State) : Host.Outcome State Fault Refusal := answerWord (rdSound s)

/-- `RD_JOY0_DATA` -/
def execRdJoy0Data (lanes : Lanes) (s : State) : Host.Outcome State Fault Refusal :=
  answerWord (rdJoy0Data none lanes s)

/-- `RD_JOY12_DATA`: either address. -/
def execRdJoy12Data (lanes : Lanes) (_a : Addr) (s : State) : Host.Outcome State Fault Refusal :=
  answerWord (rdJoy12Data lanes s)

/-- `RD_JOY_CTRL`, port 0 -/
def execRdJoyCtrl0 (lanes : Lanes) (s : State) : Host.Outcome State Fault Refusal :=
  answerWord (rdJoyCtrl (controlPort 0xA10008) lanes s)

/-- `RD_JOY_CTRL`, port 1 -/
def execRdJoyCtrl1 (lanes : Lanes) (s : State) : Host.Outcome State Fault Refusal :=
  answerWord (rdJoyCtrl (controlPort 0xA1000A) lanes s)

/-- `RD_JOY_CTRL`, port 2 -/
def execRdJoyCtrl2 (lanes : Lanes) (s : State) : Host.Outcome State Fault Refusal :=
  answerWord (rdJoyCtrl (controlPort 0xA1000C) lanes s)

/-- `RD_MEMMODE` -/
def execRdMemmode (_lanes : Lanes) (s : State) : Host.Outcome State Fault Refusal := answerWord (rdMemmode s)

/-- `RD_BUSREQ` -/
def execRdBusreq (_lanes : Lanes) (s : State) : Host.Outcome State Fault Refusal := answerWord (rdBusreq s)

/-- `RD_Z80RST` -/
def execRdZ80rst (_lanes : Lanes) (s : State) : Host.Outcome State Fault Refusal := answerWord (rdZ80rst s)

/-- `RD_VDP_DATA`: both addresses call the same facade operation. -/
def execRdVdpData (lanes : Lanes) (_a : Addr) (s : State) : Host.Outcome State Fault Refusal :=
  answerWord (rdVdpData lanes s)

/-- `RD_VDP_CTRL`: both addresses call the same facade operation. -/
def execRdVdpCtrl (lanes : Lanes) (_a : Addr) (s : State) : Host.Outcome State Fault Refusal :=
  answerWord (rdVdpCtrl lanes s)

/-- `RD_HV` -/
def execRdHv (_lanes : Lanes) (s : State) : Host.Outcome State Fault Refusal := answerWord (rdHv s)

/-- `RD_PSG` -/
def execRdPsg (_lanes : Lanes) (s : State) : Host.Outcome State Fault Refusal := answerWord (rdPsg s)

/-- `RD_WRAM` -/
def execRdWram (lanes : Lanes) (a : Addr) (s : State) : Host.Outcome State Fault Refusal :=
  answerWord (rdWram lanes a s)

/-- `RD_INVALID`: any lanes. -/
def execRdInvalid (_lanes : Lanes) (a : Addr) (s : State) : Host.Outcome State Fault Refusal :=
  answerWord (rdInvalid a s)

/-- `PEEK_ROM` -/
def execPeekRom (a : Addr) (s : State) : Host.Outcome State Fault Refusal := answerWord (peekRom a s)

/-- `PEEK_WRAM` -/
def execPeekWram (a : Addr) (s : State) : Host.Outcome State Fault Refusal := answerWord (peekWram a s)

/-- `PEEK_INVALID` -/
def execPeekInvalid (a : Addr) (s : State) : Host.Outcome State Fault Refusal := answerWord (peekInvalid a s)

end Sys2Proof.Machine
end

