-- ==== Sys2Proof/Machine/Write.lean ====
section
/-! DEFINITION. The primary-bus write decoder: 41_bus_write.md R140 to R157. Bits of `V` in an unrequested lane are ignored
by every row that stores (D28); the VDP facade receives `(V, H, L)` whole (D9). -/

namespace Sys2Proof.Machine

/-- `WR_ROM` (R142): rejected whatever `S.rom.writeable` holds. -/
def wrRom (a : Addr) (s : State) : State := s.raise (.romWrite a)

/-- `WR_SRAM_W` (R143): a protocol error; neither lane is stored. -/
def wrSramW (a : Addr) (s : State) : State := s.raise (.busWidth .W a)

/-- `WR_SRAM_B` (R144): the byte of the one requested lane. -/
def wrSramB (lanes : Lanes) (a : Addr) (v : Word) (s : State) : State :=
  if lanes.h then s.writeSecondary (secondaryHigh a) (highByte v)
  else s.writeSecondary (secondaryLow a) (lowByte v)

/-- `WR_SOUND` (R145), a stub. -/
def wrSound (s : State) : State := s

/-- `WR_JOY_DATA` (R146): the low lane only. -/
def wrJoyData (n : Port) (lanes : Lanes) (v : Word) (s : State) : State :=
  if lanes.l then joyWriteData n (lowByte v) s else s

/-- `WR_JOY_CTRL` (R147): the low lane only. -/
def wrJoyCtrl (n : Port) (lanes : Lanes) (v : Word) (s : State) : State :=
  if lanes.l then joyWriteCtrl n (lowByte v) s else s

/-- `WR_MEMMODE` (R148), a stub. -/
def wrMemmode (s : State) : State := s

/-- `WR_BUSREQ` (R149), a stub. -/
def wrBusreq (s : State) : State := s

/-- `WR_Z80RST` (R150), a stub. -/
def wrZ80rst (s : State) : State := s

/-- `WR_VDP_DATA` (R151): one facade call. -/
def wrVdpData (lanes : Lanes) (v : Word) (s : State) : State := vdpWriteData v lanes s

/-- `WR_VDP_CTRL` (R152): one facade call, which may peek. -/
def wrVdpCtrl (lanes : Lanes) (v : Word) (s : State) : State := vdpWriteCtrl v lanes s

/-- `WR_HV` (R153), a stub. -/
def wrHv (s : State) : State := s

/-- `WR_PSG` (R154), a stub. -/
def wrPsg (s : State) : State := s

/-- `WR_WRAM` (R155): each requested lane at its own index. -/
def wrWram (lanes : Lanes) (a : Addr) (v : Word) (s : State) : State :=
  let s1 := if lanes.h then s.writeWork (workHigh a) (highByte v) else s
  if lanes.l then s1.writeWork (workLow a) (lowByte v) else s1

/-- `WR_INVALID` (R156), the default row. -/
def wrInvalid (a : Addr) (s : State) : State := s.raise (.invalidAddress .W a)

/-- The rule of a write row. -/
def writeRow (lanes : Lanes) (a : Addr) (v : Word) (s : State) : WriteRow → State
  | .rom => wrRom a s
  | .sramW => wrSramW a s
  | .sramB => wrSramB lanes a v s
  | .sound => wrSound s
  | .joyData n => wrJoyData n lanes v s
  | .joyCtrl n => wrJoyCtrl n lanes v s
  | .memmode => wrMemmode s
  | .busreq => wrBusreq s
  | .z80rst => wrZ80rst s
  | .vdpData => wrVdpData lanes v s
  | .vdpCtrl => wrVdpCtrl lanes v s
  | .hv => wrHv s
  | .psg => wrPsg s
  | .wram => wrWram lanes a v s
  | .invalid => wrInvalid a s

/-- `BusWrite(A, H, L, V)` (R140): the first write row that matches, performed. -/
def busWrite (lanes : Lanes) (a : Addr) (v : Word) (s : State) : State :=
  writeRow lanes a v s (selectWrite s.rom.size (descriptor false true lanes a))

/-- A write presented as a request: it has no result (R140). -/
def answerNothing (s : State) : Host.Outcome State Fault Refusal := .next (s.answer .nothing)

/-- `WR_ROM`: any lanes, any data. -/
def execWrRom (_lanes : Lanes) (a : Addr) (_v : Word) (s : State) : Host.Outcome State Fault Refusal :=
  answerNothing (wrRom a s)

/-- `WR_SRAM_W`: any data. -/
def execWrSramW (a : Addr) (_v : Word) (s : State) : Host.Outcome State Fault Refusal := answerNothing (wrSramW a s)

/-- `WR_SRAM_B` -/
def execWrSramB (lanes : Lanes) (a : Addr) (v : Word) (s : State) : Host.Outcome State Fault Refusal :=
  answerNothing (wrSramB lanes a v s)

/-- `WR_SOUND` -/
def execWrSound (_lanes : Lanes) (_a : Addr) (_v : Word) (s : State) : Host.Outcome State Fault Refusal :=
  answerNothing (wrSound s)

/-- `WR_JOY_DATA`, port 0 -/
def execWrJoyData0 (lanes : Lanes) (v : Word) (s : State) : Host.Outcome State Fault Refusal :=
  answerNothing (wrJoyData (dataPort 0xA10002) lanes v s)

/-- `WR_JOY_DATA`, port 1 -/
def execWrJoyData1 (lanes : Lanes) (v : Word) (s : State) : Host.Outcome State Fault Refusal :=
  answerNothing (wrJoyData (dataPort 0xA10004) lanes v s)

/-- `WR_JOY_DATA`, port 2 -/
def execWrJoyData2 (lanes : Lanes) (v : Word) (s : State) : Host.Outcome State Fault Refusal :=
  answerNothing (wrJoyData (dataPort 0xA10006) lanes v s)

/-- `WR_JOY_CTRL`, port 0 -/
def execWrJoyCtrl0 (lanes : Lanes) (v : Word) (s : State) : Host.Outcome State Fault Refusal :=
  answerNothing (wrJoyCtrl (controlPort 0xA10008) lanes v s)

/-- `WR_JOY_CTRL`, port 1 -/
def execWrJoyCtrl1 (lanes : Lanes) (v : Word) (s : State) : Host.Outcome State Fault Refusal :=
  answerNothing (wrJoyCtrl (controlPort 0xA1000A) lanes v s)

/-- `WR_JOY_CTRL`, port 2 -/
def execWrJoyCtrl2 (lanes : Lanes) (v : Word) (s : State) : Host.Outcome State Fault Refusal :=
  answerNothing (wrJoyCtrl (controlPort 0xA1000C) lanes v s)

/-- `WR_MEMMODE` -/
def execWrMemmode (_lanes : Lanes) (_v : Word) (s : State) : Host.Outcome State Fault Refusal :=
  answerNothing (wrMemmode s)

/-- `WR_BUSREQ` -/
def execWrBusreq (_lanes : Lanes) (_v : Word) (s : State) : Host.Outcome State Fault Refusal :=
  answerNothing (wrBusreq s)

/-- `WR_Z80RST` -/
def execWrZ80rst (_lanes : Lanes) (_v : Word) (s : State) : Host.Outcome State Fault Refusal :=
  answerNothing (wrZ80rst s)

/-- `WR_VDP_DATA`: either address. -/
def execWrVdpData (lanes : Lanes) (_a : Addr) (v : Word) (s : State) : Host.Outcome State Fault Refusal :=
  answerNothing (wrVdpData lanes v s)

/-- `WR_VDP_CTRL`: either address. -/
def execWrVdpCtrl (lanes : Lanes) (_a : Addr) (v : Word) (s : State) : Host.Outcome State Fault Refusal :=
  answerNothing (wrVdpCtrl lanes v s)

/-- `WR_HV` -/
def execWrHv (_lanes : Lanes) (_v : Word) (s : State) : Host.Outcome State Fault Refusal := answerNothing (wrHv s)

/-- `WR_PSG` -/
def execWrPsg (_lanes : Lanes) (_v : Word) (s : State) : Host.Outcome State Fault Refusal := answerNothing (wrPsg s)

/-- `WR_WRAM` -/
def execWrWram (lanes : Lanes) (a : Addr) (v : Word) (s : State) : Host.Outcome State Fault Refusal :=
  answerNothing (wrWram lanes a v s)

/-- `WR_INVALID`: any lanes, any data. -/
def execWrInvalid (_lanes : Lanes) (a : Addr) (_v : Word) (s : State) : Host.Outcome State Fault Refusal :=
  answerNothing (wrInvalid a s)

end Sys2Proof.Machine
end

