-- ==== Sys2Proof/Machine/Cpu.lean ====
section
/-! DEFINITION. The primary CPU as this block sees it: three external operations, each of which may issue any number of
primary-bus transactions, decoded by this block in the order issued, each completing before the next
(00_scope.md R9, R12; 20_memory.md R59, R67; 60_exceptions.md R288 to R293). -/

namespace Sys2Proof.Machine

/-- One transaction of the CPU, recorded with its result when it completes. -/
def serve (callback : Option Handle) (q : BusRequest) (s : State) : State :=
  match q.op with
  | .read =>
    let r := busRead callback q.lanes q.addr s
    r.2.emit (.cpuRead q.lanes q.addr r.1)
  | .write v => (busWrite q.lanes q.addr v s).emit (.cpuWrite q.lanes q.addr v)

/-- The transactions of one CPU call, in order. -/
def serveAll (callback : Option Handle) : List BusRequest → State → State
  | [], s => s
  | q :: rest, s => serveAll callback rest (serve callback q s)

/-- A CPU operation: the call, then the transactions the CPU issues inside it. -/
def cpuCall (e : Event) (callback : Option Handle) (s : State) : State :=
  let d := drawCpuWork (s.emit e)
  serveAll callback d.1 d.2

/-- `cpu_step()` -/
def cpuStep (callback : Option Handle) (s : State) : State := cpuCall .cpuStep callback s

/-- `cpu_interrupt(level)`: the interrupt request, one synchronous call. The block keeps no pending, mask or acknowledge
state; accepting, stacking and vectoring are the CPU's (60_exceptions.md R289, R290, R292). -/
def cpuInterrupt (level : IntLevel) (callback : Option Handle) (s : State) : State :=
  cpuCall (.cpuInterrupt level) callback s

/-- `cpu_reset()`: its vector reads are among its transactions (70_reset_and_hazards.md R321, R322). -/
def cpuReset (callback : Option Handle) (s : State) : State := cpuCall .cpuReset callback s

end Sys2Proof.Machine
end

