-- ==== Sys2Proof/Machine/Frame.lean ====
section
/-! DEFINITION. The frame sequencer: 44_frame_driver.md R230 to R243. `runFrame` is R230's pseudocode; `advance` is the
position table R240, one row at a time. `RunFrameFollowsPositionTable` states that they agree. -/

namespace Sys2Proof.Machine

/-- The two callbacks of one `RUN_FRAME` (45_lifecycle.md R267), passed explicitly (44_frame_driver.md R239). -/
structure Callbacks where
  scanline   : Handle
  inputQuery : Handle
  deriving DecidableEq, Repr

/-- The position of line `l`'s start, or `VINT` after the last visible line (R240). -/
def lineStart (visibleLines l : Nat) : Position := if l < visibleLines then .lines l 0 false else .vint

/-- One `cpu_step()`, after which the position is `p` (R234, R240). -/
def stepTo (cb : Callbacks) (p : Position) (s : State) : State :=
  (cpuStep (some cb.inputQuery) s).moveTo (some p)

/-- `n` units of two `cpu_step()` calls each, from unit `u` of line `l` on (R234). -/
def runUnits (cb : Callbacks) (l : Nat) : Nat → Nat → State → State
  | 0, _, s => s
  | n + 1, u, s => runUnits cb l n (u + 1) (stepTo cb (.lines l (u + 1) false) (stepTo cb (.lines l u true) s))

/-- `if vdp_hint_enabled(): cpu_interrupt(4)` (R236). -/
def hintTest (cb : Callbacks) (s : State) : State :=
  let h := vdpHintEnabled s
  if h.1 then cpuInterrupt .level4 (some cb.inputQuery) h.2 else h.2

/-- `if vdp_vint_enabled(): cpu_interrupt(6)` (R237). -/
def vintTest (cb : Callbacks) (s : State) : State :=
  let v := vdpVintEnabled s
  if v.1 then cpuInterrupt .level6 (some cb.inputQuery) v.2 else v.2

/-- The end of line `l`: render (R235), then the H-int test of the same line (R236, D16). -/
def endLine (cb : Callbacks) (l : Nat) (s : State) : State :=
  (hintTest cb (vdpRender l cb.scanline s)).moveTo (some (lineStart s.cfg.visibleLines (l + 1)))

/-- The body of line `l` with `U` units (R233). -/
def lineBody (cb : Callbacks) (U l : Nat) (s : State) : State := endLine cb l (runUnits cb l U 0 s)

/-- `n` lines from line `l` on, in increasing order (R233). -/
def runLines (cb : Callbacks) (U : Nat) : Nat → Nat → State → State
  | 0, _, s => s
  | n + 1, l, s => runLines cb U n (l + 1) (lineBody cb U l s)

/-- The end of the frame (R237). -/
def endFrame (cb : Callbacks) (s : State) : State := (vintTest cb s).moveTo (some .done)

/-- The frame's start: the position of R240's first row. -/
def startFrame (s : State) : State := s.moveTo (some (lineStart s.cfg.visibleLines 0))

/-- `RunFrame(scanline_callback, input_query_callback)` (R230); `S.pal` is read once, at its start (R231). -/
def runFrame (cb : Callbacks) (s : State) : State :=
  endFrame cb (runLines cb (units s.cfg s.pal) s.cfg.visibleLines 0 (startFrame s))

/-- One row of the position table R240, with `U` units a line. `DONE` and "no frame" stay. -/
def advance (cb : Callbacks) (U : Nat) (s : State) : State :=
  match s.seq with
  | some (.lines l u false) => if u < U then stepTo cb (.lines l u true) s else endLine cb l s
  | some (.lines l u true) => stepTo cb (.lines l (u + 1) false) s
  | some .vint => endFrame cb s
  | some .done => s
  | none => s

/-- `k` rows of the position table. -/
def advanceMany (cb : Callbacks) (U : Nat) : Nat → State → State
  | 0, s => s
  | k + 1, s => advanceMany cb U k (advance cb U s)

end Sys2Proof.Machine
end

