-- ==== Sys2Proof/Machine/Lifecycle.lean ====
section
/-! DEFINITION. The host operations: 45_lifecycle.md R260 to R269 and 70_reset_and_hazards.md R320 to R323. -/

namespace Sys2Proof.Machine

/-- What a well-behaved host may call: nothing while a frame runs, for a callback must not re-enter the emulator
(45_lifecycle.md R269, D19). -/
def hostCall (s : State) (k : State → Host.Outcome State Fault Refusal) : Host.Outcome State Fault Refusal :=
  if s.seq.isSome then .refused .reentered else k s

/-- What needs `INIT` to have run (N24, D19). -/
def initialisedCall (s : State) (k : State → Host.Outcome State Fault Refusal) :
    Host.Outcome State Fault Refusal :=
  hostCall s fun s => if s.initialised then k s else .refused .notInitialised

/-! ### `init` (70_reset_and_hazards.md R320) -/

/-- The marked fields of 10_state.md R39 at their listed values. -/
def zeroStore (s : State) : State :=
  { s with
    rom := { buffer := Memory.zeroes, size := 0, writeable := false }
    workRam := Memory.zeroes
    secondaryRam := Memory.zeroes
    joypads := { p0 := JoyPort.cleared, p1 := JoyPort.cleared, p2 := JoyPort.cleared }
    pal := false
    japanese := false }

/-- An array of drawn bytes. -/
def drawnArray (seed : Nat) : Memory := { fill := .drawn seed, cells := [] }

/-- A port of two drawn bytes. -/
def drawnPort (seed : Nat) : JoyPort := { control := Config.freeByte seed, data := Config.freeByte (seed + 1) }

/-- The marked fields of 10_state.md R39 as draws. The drawn size keeps the bound of R22 (log 14). -/
def drawStore (s : State) : State :=
  let n := s.env.drawn
  ({ s with
    rom := {
      buffer := drawnArray n
      size := Config.freeNat (n + 1) % (s.cfg.romCapacity + 1)
      writeable := Config.freeBool (n + 2) }
    workRam := drawnArray (n + 3)
    secondaryRam := drawnArray (n + 4)
    joypads := { p0 := drawnPort (n + 5), p1 := drawnPort (n + 7), p2 := drawnPort (n + 9) }
    pal := Config.freeBool (n + 11)
    japanese := Config.freeBool (n + 12) }).setEnv { s.env with drawn := n + 13 }

/-- `init()`: the VDP's init, then the store, then the log cleared. -/
def initialise (s : State) : State :=
  let v := vdpInit s
  { (if v.cfg.initZeroesStore then zeroStore v else drawStore v) with diag := [], initialised := true }

/-- `INIT`: exactly once. -/
def execInit (s : State) : Host.Outcome State Fault Refusal :=
  hostCall s fun s => if s.initialised then .refused .secondInit else answerNothing (initialise s)

/-! ### `reset` (R321) -/

/-- `RESET`: the CPU's reset operation and its transactions; no field is written by the reset itself (10_state.md R40). -/
def execReset (s : State) : Host.Outcome State Fault Refusal :=
  initialisedCall s fun s => answerNothing (cpuReset none s)

/-! ### `install_rom` (R260, R261) -/

/-- The effect of `install_rom(bytes, length)`. -/
def installRom (bytes : List Byte) (length : Nat) (s : State) : State :=
  if s.cfg.romCapacity < length then s.raise (.oversizedRom length)
  else s.setRom { s.rom with buffer := s.rom.buffer.copyIn 0 (bytes.take length), size := length }

/-- `INSTALL_ROM bytes, length`: refused where the host buffer is shorter than `length` (I20, log 18). -/
def execInstallRom (bytes : List Byte) (length : Nat) (s : State) : Host.Outcome State Fault Refusal :=
  hostCall s fun s =>
    if bytes.length < length then .refused .romBufferTooShort else answerNothing (installRom bytes length s)

/-! ### The flag setters and `state_size` (R262 to R265) -/

/-- `SET_ROM_WRITEABLE b` -/
def execSetRomWriteable (b : Int) (s : State) : Host.Outcome State Fault Refusal :=
  hostCall s fun s => answerNothing (s.setRom { s.rom with writeable := hostFlag b })

/-- `SET_PAL b` -/
def execSetPal (b : Int) (s : State) : Host.Outcome State Fault Refusal :=
  hostCall s fun s => answerNothing { s with pal := hostFlag b }

/-- `SET_JAPANESE b` -/
def execSetJapanese (b : Int) (s : State) : Host.Outcome State Fault Refusal :=
  hostCall s fun s => answerNothing { s with japanese := hostFlag b }

/-- `STATE_SIZE -> n`: needs no machine state, and may be called before `INIT`. -/
def execStateSize (s : State) : Host.Outcome State Fault Refusal :=
  hostCall s fun s => .next (s.answer (.size s.cfg.stateSize))

/-! ### `run_frame` (R266) -/

/-- `RUN_FRAME scanline_callback, input_query_callback`: one whole frame; the position does not survive the call
(10_state.md R34). -/
def execRunFrame (scanlineCallback inputQueryCallback : Handle) (s : State) : Host.Outcome State Fault Refusal :=
  initialisedCall s fun s =>
    answerNothing ((runFrame { scanline := scanlineCallback, inputQuery := inputQueryCallback } s).moveTo none)

end Sys2Proof.Machine
end

