-- ==== Sys2Proof/Machine/Dispatch.lean ====
section
/-! DEFINITION. The dispatch of an instruction to its meaning, one arm per row of spec/opcode_table.json. -/

namespace Sys2Proof.Machine

-- What each row of the decode table (30_encoding.md R87) and each host operation (R91) does to the machine.
def exec (i : Instr) (s : State) : Host.Outcome State Fault Refusal :=
  match i with
  | .rdRom lanes a => Sys2Proof.Machine.execRdRom lanes a s
  | .rdSramW a => Sys2Proof.Machine.execRdSramW a s
  | .rdSramB lanes a => Sys2Proof.Machine.execRdSramB lanes a s
  | .rdSound lanes a => Sys2Proof.Machine.execRdSound lanes a s
  | .rdJoy0Data lanes => Sys2Proof.Machine.execRdJoy0Data lanes s
  | .rdJoy12Data lanes a => Sys2Proof.Machine.execRdJoy12Data lanes a s
  | .rdJoyCtrl0 lanes => Sys2Proof.Machine.execRdJoyCtrl0 lanes s
  | .rdJoyCtrl1 lanes => Sys2Proof.Machine.execRdJoyCtrl1 lanes s
  | .rdJoyCtrl2 lanes => Sys2Proof.Machine.execRdJoyCtrl2 lanes s
  | .rdMemmode lanes => Sys2Proof.Machine.execRdMemmode lanes s
  | .rdBusreq lanes => Sys2Proof.Machine.execRdBusreq lanes s
  | .rdZ80rst lanes => Sys2Proof.Machine.execRdZ80rst lanes s
  | .rdVdpData lanes a => Sys2Proof.Machine.execRdVdpData lanes a s
  | .rdVdpCtrl lanes a => Sys2Proof.Machine.execRdVdpCtrl lanes a s
  | .rdHv lanes => Sys2Proof.Machine.execRdHv lanes s
  | .rdPsg lanes => Sys2Proof.Machine.execRdPsg lanes s
  | .rdWram lanes a => Sys2Proof.Machine.execRdWram lanes a s
  | .rdInvalid lanes a => Sys2Proof.Machine.execRdInvalid lanes a s
  | .wrRom lanes a v => Sys2Proof.Machine.execWrRom lanes a v s
  | .wrSramW a v => Sys2Proof.Machine.execWrSramW a v s
  | .wrSramB lanes a v => Sys2Proof.Machine.execWrSramB lanes a v s
  | .wrSound lanes a v => Sys2Proof.Machine.execWrSound lanes a v s
  | .wrJoyData0 lanes v => Sys2Proof.Machine.execWrJoyData0 lanes v s
  | .wrJoyData1 lanes v => Sys2Proof.Machine.execWrJoyData1 lanes v s
  | .wrJoyData2 lanes v => Sys2Proof.Machine.execWrJoyData2 lanes v s
  | .wrJoyCtrl0 lanes v => Sys2Proof.Machine.execWrJoyCtrl0 lanes v s
  | .wrJoyCtrl1 lanes v => Sys2Proof.Machine.execWrJoyCtrl1 lanes v s
  | .wrJoyCtrl2 lanes v => Sys2Proof.Machine.execWrJoyCtrl2 lanes v s
  | .wrMemmode lanes v => Sys2Proof.Machine.execWrMemmode lanes v s
  | .wrBusreq lanes v => Sys2Proof.Machine.execWrBusreq lanes v s
  | .wrZ80rst lanes v => Sys2Proof.Machine.execWrZ80rst lanes v s
  | .wrVdpData lanes a v => Sys2Proof.Machine.execWrVdpData lanes a v s
  | .wrVdpCtrl lanes a v => Sys2Proof.Machine.execWrVdpCtrl lanes a v s
  | .wrHv lanes v => Sys2Proof.Machine.execWrHv lanes v s
  | .wrPsg lanes v => Sys2Proof.Machine.execWrPsg lanes v s
  | .wrWram lanes a v => Sys2Proof.Machine.execWrWram lanes a v s
  | .wrInvalid lanes a v => Sys2Proof.Machine.execWrInvalid lanes a v s
  | .peekRom a => Sys2Proof.Machine.execPeekRom a s
  | .peekWram a => Sys2Proof.Machine.execPeekWram a s
  | .peekInvalid a => Sys2Proof.Machine.execPeekInvalid a s
  | .init => Sys2Proof.Machine.execInit s
  | .reset => Sys2Proof.Machine.execReset s
  | .installRom bytes length => Sys2Proof.Machine.execInstallRom bytes length s
  | .setRomWriteable b => Sys2Proof.Machine.execSetRomWriteable b s
  | .setPal b => Sys2Proof.Machine.execSetPal b s
  | .setJapanese b => Sys2Proof.Machine.execSetJapanese b s
  | .runFrame scanlineCallback inputQueryCallback => Sys2Proof.Machine.execRunFrame scanlineCallback inputQueryCallback s
  | .stateSize => Sys2Proof.Machine.execStateSize s

end Sys2Proof.Machine
end

