-- ==== Sys2Proof/Machine/Step.lean ====
section
/-! DEFINITION. One step: take the next pending request, decode it against `S.rom.size`, perform its row
(30_encoding.md R81, R87, R93; logs 1 and 2). -/

namespace Sys2Proof.Machine

/-- The refusal of a descriptor that spells no transaction (30_encoding.md R86). -/
def refusalOf : DecodeError → Refusal
  | .noLane => .noLane
  | .peekWrite => .peekWrite
  | .peekLanes => .peekLanes

/-- One step of the machine. -/
def step (s : State) : Host.Outcome State Fault Refusal :=
  match s.pending with
  | [] => .refused .noRequest
  | r :: rest =>
    match decode s.rom.size r with
    | .error e => .refused (refusalOf e)
    | .ok i => exec i { s with pending := rest }

/-- `s` with the transaction whose bits are `w` as the next request, and the ROM size under which `decodeTableWord`
reads a bare word, so that a ROM-row word is one (log 2). -/
def State.withFetchWord (s : State) (nbits w : Nat) : State :=
  match requestOfBits nbits w with
  | none => { s with pending := [] }
  | some r => { s with pending := r :: s.pending, rom := { s.rom with size := tableRomSize } }

end Sys2Proof.Machine
end

