-- ==== Sys2Proof/Machine/Pseudo.lean ====
section
/-! DEFINITION. The byte and long forms of 30_encoding.md R90 and the memory primitives of 00_scope.md R11. They are the
spec's notation for test programs; no rule of the block depends on them (R11), and the byte-address convention is the
primary CPU's. -/

namespace Sys2Proof.Machine

/-- `a AND 0xFFFFFE` -/
def evenAddr (a : Addr) : Addr := a &&& 0xFFFFFE#24

/-- The lane of the byte at byte address `a`. -/
def byteLane (a : Addr) : Lanes := if a.getLsbD 0 then .low else .high

/-- `b ++ b` -/
def doubled (b : Byte) : Word := joinBytes b b

/-- `RD.B a` -/
def requestRdB (a : Addr) : Request := .read (byteLane a) (evenAddr a)

/-- `WR.B a, b` -/
def requestWrB (a : Addr) (b : Byte) : Request := .write (byteLane a) (evenAddr a) (doubled b)

/-- `RD.LONG a`: the word at `a`, then the word at `a + 2`; the sum wraps at 24 bits. -/
def requestRdLong (a : Addr) : List Request := [.rdW a, .rdW (a + 2)]

/-- `WR.LONG a, v`: bits 31:16 at `a`, then bits 15:0 at `a + 2`. -/
def requestWrLong (a : Addr) (v : BitVec 32) : List Request :=
  [.wrW a (v.extractLsb' 16 16), .wrW (a + 2) (v.extractLsb' 0 16)]

/-- `MemRead(a, 2)` -/
def memReadWord (callback : Option Handle) (a : Addr) (s : State) : Word × State := busRead callback .both a s

/-- `MemRead(a, 1)` -/
def memReadByte (callback : Option Handle) (a : Addr) (s : State) : Byte × State :=
  let r := busRead callback (byteLane a) (evenAddr a) s
  (if a.getLsbD 0 then lowByte r.1 else highByte r.1, r.2)

/-- `MemWrite(a, 2, v)` -/
def memWriteWord (a : Addr) (v : Word) (s : State) : State := busWrite .both a v s

/-- `MemWrite(a, 1, b)` -/
def memWriteByte (a : Addr) (b : Byte) (s : State) : State := busWrite (byteLane a) (evenAddr a) (doubled b) s

end Sys2Proof.Machine
end

