-- ==== Sys2Proof/Safety.lean ====
section
/-! DEFINITION. What claims about runs are stated in: the block's invariant (10_state.md R38), and which parts of two states
agree. -/

namespace Sys2Proof.Machine

/-- The invariants of 10_state.md R38 and the constraints of 00_scope.md R10, with each array in canonical form below
its size: R38's "every index ... is < 0x10000" and "< 0x2000". -/
structure State.Inv (s : State) : Prop where
  params    : s.cfg.valid = true
  romSize   : s.rom.size ≤ s.cfg.romCapacity
  romBuffer : s.rom.buffer.wf s.cfg.romCapacity = true
  work      : s.workRam.wf 0x10000 = true
  secondary : s.secondaryRam.wf 0x2000 = true

/-- The two states hold the same storage, registers, flags and parameters, position, lifecycle and requests: they may
differ in the log, the VDP's state, the answer, and the record and scripts of the outside agents. -/
structure SameStore (s t : State) : Prop where
  cfg          : t.cfg = s.cfg
  rom          : t.rom = s.rom
  workRam      : t.workRam = s.workRam
  secondaryRam : t.secondaryRam = s.secondaryRam
  joypads      : t.joypads = s.joypads
  pal          : t.pal = s.pal
  japanese     : t.japanese = s.japanese
  seq          : t.seq = s.seq
  initialised  : t.initialised = s.initialised
  pending      : t.pending = s.pending

/-- What neither a primary-bus write (41_bus_write.md R157) nor a frame changes: the parameters, the ROM, the flags, the
lifecycle and the requests. -/
structure SameConfiguration (s t : State) : Prop where
  cfg         : t.cfg = s.cfg
  rom         : t.rom = s.rom
  pal         : t.pal = s.pal
  japanese    : t.japanese = s.japanese
  initialised : t.initialised = s.initialised
  pending     : t.pending = s.pending

/-- The calls the frame sequencer itself makes (44_frame_driver.md R230): all other events happen inside one of them, or
belong to a standalone request. -/
def isSequencerCall : Event → Bool
  | .cpuStep => true
  | .cpuInterrupt _ => true
  | .vdpRender _ _ => true
  | .vdpHintEnabled _ => true
  | .vdpVintEnabled _ => true
  | .cpuReset => false
  | .vdpInit => false
  | .vdpReadData _ => false
  | .vdpReadCtrl _ => false
  | .vdpWriteData _ _ => false
  | .vdpWriteCtrl _ _ => false
  | .scanline _ _ _ => false
  | .query _ _ _ _ => false
  | .cpuRead _ _ _ => false
  | .cpuWrite _ _ _ => false
  | .peeked _ _ => false

/-- The line a render call renders. -/
def renderedLine : Event → Option Nat
  | .vdpRender l _ => some l
  | _ => none

/-- The calls of one line body (R233 to R236): `step x 2U, render(l), hint?`, and `int(4)` where the hint flag was
true. -/
def lineCalls (U : Nat) (scanlineCallback : Handle) (l : Nat) (hint : Bool) : List Event :=
  List.replicate (2 * U) .cpuStep ++ [.vdpRender l scanlineCallback, .vdpHintEnabled hint] ++
    (if hint then [.cpuInterrupt .level4] else [])

/-- The calls of the lines from `l` on, one for each answer of the hint flag. -/
def linesCalls (U : Nat) (scanlineCallback : Handle) : Nat → List Bool → List Event
  | _, [] => []
  | l, hint :: rest => lineCalls U scanlineCallback l hint ++ linesCalls U scanlineCallback (l + 1) rest

/-- The calls of the end of a frame (R237). -/
def endCalls (vint : Bool) : List Event := .vdpVintEnabled vint :: if vint then [.cpuInterrupt .level6] else []

/-- `t` is `s` after the CPU call `call` (00_scope.md R12): the call recorded, then its transactions served in the order
issued, those being the script's next, or free where no script is left (logs 5 and 6). -/
def IsCpuCall (call : Event) (callback : Option Handle) (s t : State) : Prop :=
  ∃ (qs : List BusRequest) (e : Env),
    t = serveAll callback qs { s with trace := s.trace ++ [call], env := e } ∧
    (∀ work rest, s.env.cpuWork = work :: rest → qs = work ∧ e = { s.env with cpuWork := rest }) ∧
    (s.env.cpuWork = [] →
      qs = Config.freeCpuWork s.env.drawn ∧ e = { s.env with drawn := s.env.drawn + 1 })

/-- The two states agree but in what no rule reads: the log (10_state.md R33), `S.rom.writeable` (R23) and
`S.japanese` (R31). -/
def AgreeButUnread (s t : State) : Prop :=
  t = { s with diag := t.diag, rom := { s.rom with writeable := t.rom.writeable }, japanese := t.japanese }

/-- The outcome of one step on two machines agrees up to a relation of their states. -/
def OutcomesAgree (rel : State → State → Prop) :
    Host.Outcome State Fault Refusal → Host.Outcome State Fault Refusal → Prop
  | .next s, .next t => rel s t
  | .refused q, .refused r => q = r
  | _, _ => False

end Sys2Proof.Machine
end

