-- ==== Sys2Proof/Certificates/Slice0/Obligations.lean ====
section
/-! DEFINITION. The statements for the provers. Each docstring names the rules of spec/ it formalises; indices and lane bits
are written out from the rules, not by the model's own index functions. -/

open Sys2Proof Sys2Proof.Machine

/-! ### Encoding (30_encoding.md) -/

/-- 30_encoding.md R80, R87: descriptors written out from the tables (spec vectors V1, V8, V18, V23, W9, W24, K3). -/
def Obligations.ListedDescriptorsDecode : Prop :=
  decode 5 (.transaction 0x3000000 0) = .ok (.rdRom .both 0x000000) ∧
  decode 5 (.transaction 0x2A00010 0) = .ok (.rdSramB .high 0xA00010) ∧
  decode 5 (.transaction 0x3A10002 0) = .ok (.rdJoy0Data .both) ∧
  decode 5 (.transaction 0x2A1000A 0) = .ok (.rdJoyCtrl1 .high) ∧
  decode 5 (.transaction 0x5A10002 0x00FF) = .ok (.wrJoyData0 .low 0x00FF) ∧
  decode 5 (.transaction 0x7FF1000 0x1234) = .ok (.wrWram .both 0xFF1000 0x1234) ∧
  decode 5 (.transaction 0xBFF1000 0) = .ok (.peekWram 0xFF1000)

/-- Every well-formed instruction's encoding decodes to it. The premise is ROM_CAPACITY's constraint (00_scope.md R10) on
the ROM size. -/
def Obligations.DecodeEncodeRoundTrip : Prop :=
  ∀ (size : Nat) (i : Instr), size ≤ 0xA00000 → wellFormed size i = true → decode size (encode i) = .ok i

/-- Every decoded request is the encoding of what it decodes to, but for the `V` of a read or a peek, which carries none
(R84). -/
def Obligations.EncodeOfDecodedIsRequest : Prop :=
  ∀ (size : Nat) (r : Request) (i : Instr), decode size r = .ok i →
    encode i =
      match r with
      | .transaction t v => .transaction t (if t.w then v else 0)
      | .host op => .host op

/-- A decoded descriptor's operands are ones its row admits. -/
def Obligations.DecodedIsWellFormed : Prop :=
  ∀ (size : Nat) (t : Descriptor) (v : Word) (i : Instr),
    decode size (.transaction t v) = .ok i → wellFormed size i = true

/-- 30_encoding.md R86: exactly the listed descriptors are refused, no step serves one, and an address no row names
reaches the default row of its path. -/
def Obligations.RefusedDescriptorsAreR86 : Prop :=
  ∀ (s : State) (t : Descriptor) (v : Word) (rest : List Request) (lanes : Lanes) (a : Addr),
    ((∃ e, decode s.rom.size (.transaction t v) = .error e) ↔
      (t.p = false ∧ t.h = false ∧ t.l = false) ∨ (t.p = true ∧ t.w = true) ∨
        (t.p = true ∧ ¬(t.h = true ∧ t.l = true))) ∧
    (s.pending = .transaction t v :: rest →
      (t.p = false ∧ t.h = false ∧ t.l = false) ∨ (t.p = true ∧ t.w = true) ∨
        (t.p = true ∧ ¬(t.h = true ∧ t.l = true)) →
      ∃ r, step s = .refused r) ∧
    (isUnmapped s.rom.size a = true →
      decode s.rom.size (.read lanes a) = .ok (.rdInvalid lanes a) ∧
      decode s.rom.size (.write lanes a v) = .ok (.wrInvalid lanes a v)) ∧
    (s.rom.size ≤ a.toNat → a.toNat < 0xE00000 → decode s.rom.size (.peek a) = .ok (.peekInvalid a))

/-- 30_encoding.md R87, R88, R92; 20_memory.md R62: the match/mask read table selects by the listed addresses, in order. -/
def Obligations.ReadTableIsAddressMap : Prop :=
  ∀ (size : Nat) (lanes : Lanes) (a : Addr),
    decode size (.read lanes a) = .ok (
      if a.toNat < size then .rdRom lanes a
      else if 0xA00000 ≤ a.toNat ∧ a.toNat ≤ 0xA01FFF then
        (if lanes = .both then .rdSramW a else .rdSramB lanes a)
      else if a = 0xA04000 ∨ a = 0xA04002 then .rdSound lanes a
      else if a = 0xA10002 then .rdJoy0Data lanes
      else if a = 0xA10004 ∨ a = 0xA10006 then .rdJoy12Data lanes a
      else if a = 0xA10008 then .rdJoyCtrl0 lanes
      else if a = 0xA1000A then .rdJoyCtrl1 lanes
      else if a = 0xA1000C then .rdJoyCtrl2 lanes
      else if a = 0xA11000 then .rdMemmode lanes
      else if a = 0xA11100 then .rdBusreq lanes
      else if a = 0xA11200 then .rdZ80rst lanes
      else if a = 0xC00000 ∨ a = 0xC00002 then .rdVdpData lanes a
      else if a = 0xC00004 ∨ a = 0xC00006 then .rdVdpCtrl lanes a
      else if a = 0xC00008 then .rdHv lanes
      else if a = 0xC00010 then .rdPsg lanes
      else if 0xE00000 ≤ a.toNat then .rdWram lanes a
      else .rdInvalid lanes a)

/-- 30_encoding.md R87, R88, R92; 20_memory.md R62: the match/mask write table selects by the listed addresses. -/
def Obligations.WriteTableIsAddressMap : Prop :=
  ∀ (size : Nat) (lanes : Lanes) (a : Addr) (v : Word),
    decode size (.write lanes a v) = .ok (
      if a.toNat < size then .wrRom lanes a v
      else if 0xA00000 ≤ a.toNat ∧ a.toNat ≤ 0xA01FFF then
        (if lanes = .both then .wrSramW a v else .wrSramB lanes a v)
      else if a = 0xA04000 ∨ a = 0xA04002 then .wrSound lanes a v
      else if a = 0xA10002 then .wrJoyData0 lanes v
      else if a = 0xA10004 then .wrJoyData1 lanes v
      else if a = 0xA10006 then .wrJoyData2 lanes v
      else if a = 0xA10008 then .wrJoyCtrl0 lanes v
      else if a = 0xA1000A then .wrJoyCtrl1 lanes v
      else if a = 0xA1000C then .wrJoyCtrl2 lanes v
      else if a = 0xA11000 then .wrMemmode lanes v
      else if a = 0xA11100 then .wrBusreq lanes v
      else if a = 0xA11200 then .wrZ80rst lanes v
      else if a = 0xC00000 ∨ a = 0xC00002 then .wrVdpData lanes a v
      else if a = 0xC00004 ∨ a = 0xC00006 then .wrVdpCtrl lanes a v
      else if a = 0xC00008 then .wrHv lanes v
      else if a = 0xC00010 then .wrPsg lanes v
      else if 0xE00000 ≤ a.toNat then .wrWram lanes a v
      else .wrInvalid lanes a v)

/-- 30_encoding.md R87; 20_memory.md R50: the peek table maps ROM and work RAM alone. -/
def Obligations.PeekTableIsAddressMap : Prop :=
  ∀ (size : Nat) (a : Addr),
    decode size (.peek a) = .ok (
      if a.toNat < size then .peekRom a
      else if 0xE00000 ≤ a.toNat then .peekWram a
      else .peekInvalid a)

/-! ### The step -/

/-- A step serves the next pending request: the decoded instruction runs with the request taken off the queue (log 1);
an undecodable descriptor and an empty queue are refused. -/
def Obligations.StepRunsDecodedInstruction : Prop :=
  ∀ (s : State) (r : Request) (rest : List Request),
    (s.pending = [] → step s = .refused .noRequest) ∧
    (s.pending = r :: rest →
      (∀ i, decode s.rom.size r = .ok i → step s = exec i { s with pending := rest }) ∧
      (∀ e, decode s.rom.size r = .error e → step s = .refused (refusalOf e)))

/-- 30_encoding.md R81; 40_bus_read.md R100; 41_bus_write.md R140; 43_vdp_peek.md R210: `P` and `W` select the decoder, and
a transaction served by a step does what the same transaction does inside a CPU or VDP call. -/
def Obligations.TransactionStepsAreDecoderCalls : Prop :=
  ∀ (s : State) (rest : List Request) (lanes : Lanes) (a : Addr) (v : Word),
    (s.pending = .read lanes a :: rest →
      let r := busRead none lanes a { s with pending := rest }
      step s = .next { r.2 with result := .word r.1 }) ∧
    (s.pending = .write lanes a v :: rest →
      step s = .next { busWrite lanes a v { s with pending := rest } with result := .nothing }) ∧
    (s.pending = .peek a :: rest →
      let r := peek a { s with pending := rest }
      step s = .next { r.2 with result := .word r.1 })

/-! ### Primary-bus reads (40_bus_read.md) -/

/-- 40_bus_read.md R102: `RD_ROM`, its last byte included; the byte past the buffer is any value. -/
def Obligations.ReadRomAnswersBufferBytes : Prop :=
  ∀ (s : State) (lanes : Lanes) (a : Addr), a.toNat < s.rom.size →
    decode s.rom.size (.read lanes a) = .ok (.rdRom lanes a) ∧
    ∃ (low : Byte) (e : Env),
      exec (.rdRom lanes a) s = .next { s with
        result := .word ((if lanes.h then s.rom.buffer.read a.toNat else 0) ++ (if lanes.l then low else 0))
        env := e } ∧
      (a.toNat + 1 < s.cfg.romCapacity → low = s.rom.buffer.read (a.toNat + 1)) ∧
      (lanes.l = false ∨ a.toNat + 1 < s.cfg.romCapacity → e = s.env)

/-- 40_bus_read.md R103: `RD_SRAM_W` answers 0 and logs. -/
def Obligations.ReadSecondaryWordLogsBusWidth : Prop :=
  ∀ (s : State) (a : Addr), s.rom.size ≤ 0xA00000 → 0xA00000 ≤ a.toNat → a.toNat ≤ 0xA01FFF →
    decode s.rom.size (.read .both a) = .ok (.rdSramW a) ∧
    exec (.rdSramW a) s = .next { s with result := .word 0x0000, diag := s.diag ++ [.busWidth .R a] }

/-- 40_bus_read.md R104: `RD_SRAM_B` answers the byte of its lane, indices modulo 0x2000. -/
def Obligations.ReadSecondaryByteAnswersLane : Prop :=
  ∀ (s : State) (lanes : Lanes) (a : Addr), s.rom.size ≤ 0xA00000 → 0xA00000 ≤ a.toNat → a.toNat ≤ 0xA01FFF →
    lanes ≠ .both →
    decode s.rom.size (.read lanes a) = .ok (.rdSramB lanes a) ∧
    exec (.rdSramB lanes a) s = .next { s with
      result := .word (
        if lanes.h then s.secondaryRam.read ((a.toNat - 0xA00000) % 0x2000) ++ 0#8
        else 0#8 ++ s.secondaryRam.read ((a.toNat - 0xA00000 + 1) % 0x2000)) }

/-- 40_bus_read.md R105, R109 to R111, R114, R115: the stubs read 0, change nothing and log nothing; the odd neighbours of
the sound ports are not that row. -/
def Obligations.StubReadsAnswerZero : Prop :=
  ∀ (s : State) (lanes : Lanes) (a : Addr), s.rom.size ≤ 0xA00000 →
    (a = 0xA04000 ∨ a = 0xA04002 →
      decode s.rom.size (.read lanes a) = .ok (.rdSound lanes a) ∧
      exec (.rdSound lanes a) s = .next { s with result := .word 0x0000 }) ∧
    (a = 0xA04001 ∨ a = 0xA04003 → decode s.rom.size (.read lanes a) = .ok (.rdInvalid lanes a)) ∧
    decode s.rom.size (.read lanes 0xA11000) = .ok (.rdMemmode lanes) ∧
    exec (.rdMemmode lanes) s = .next { s with result := .word 0x0000 } ∧
    decode s.rom.size (.read lanes 0xA11100) = .ok (.rdBusreq lanes) ∧
    exec (.rdBusreq lanes) s = .next { s with result := .word 0x0000 } ∧
    decode s.rom.size (.read lanes 0xA11200) = .ok (.rdZ80rst lanes) ∧
    exec (.rdZ80rst lanes) s = .next { s with result := .word 0x0000 } ∧
    decode s.rom.size (.read lanes 0xC00008) = .ok (.rdHv lanes) ∧
    exec (.rdHv lanes) s = .next { s with result := .word 0x0000 } ∧
    decode s.rom.size (.read lanes 0xC00010) = .ok (.rdPsg lanes) ∧
    exec (.rdPsg lanes) s = .next { s with result := .word 0x0000 }

/-- 40_bus_read.md R106; 42_joypad.md R182 to R186: the port-0 data read, its queries and its byte, for each group; a
read without the low lane queries nothing. The order of the queries is the model's (log 22). -/
def Obligations.ReadJoypad0MultiplexesGroups : Prop :=
  ∀ (s : State) (lanes : Lanes), s.rom.size ≤ 0xA00000 →
    decode s.rom.size (.read lanes 0xA10002) = .ok (.rdJoy0Data lanes) ∧
    (lanes.l = false → exec (.rdJoy0Data lanes) s = .next { s with result := .word 0x0000 }) ∧
    (lanes.l = true → s.joypads.p0.data.getLsbD 6 = true →
      ∃ (c b right left down up : Bool) (e : Env),
        exec (.rdJoy0Data lanes) s = .next { s with
          result := .word (0#8 ++ (s.joypads.p0.data |||
            (0#2 ++ BitVec.ofBool (!c) ++ BitVec.ofBool (!b) ++ BitVec.ofBool (!right) ++ BitVec.ofBool (!left) ++
              BitVec.ofBool (!down) ++ BitVec.ofBool (!up) : BitVec 8)))
          env := e
          trace := s.trace ++
            [.query none .c (s.cfg.buttonIds.token .c) c, .query none .b (s.cfg.buttonIds.token .b) b,
             .query none .right (s.cfg.buttonIds.token .right) right,
             .query none .left (s.cfg.buttonIds.token .left) left,
             .query none .down (s.cfg.buttonIds.token .down) down,
             .query none .up (s.cfg.buttonIds.token .up) up] }) ∧
    (lanes.l = true → s.joypads.p0.data.getLsbD 6 = false →
      ∃ (start a down up : Bool) (e : Env),
        exec (.rdJoy0Data lanes) s = .next { s with
          result := .word (0#8 ++ (s.joypads.p0.data |||
            (0#2 ++ BitVec.ofBool (!start) ++ BitVec.ofBool (!a) ++ 0#2 ++ BitVec.ofBool (!down) ++
              BitVec.ofBool (!up) : BitVec 8)))
          env := e
          trace := s.trace ++
            [.query none .start (s.cfg.buttonIds.token .start) start, .query none .a (s.cfg.buttonIds.token .a) a,
             .query none .down (s.cfg.buttonIds.token .down) down,
             .query none .up (s.cfg.buttonIds.token .up) up] })

/-- 40_bus_read.md R107: all-ones in the requested lanes, no query, nothing stored is read. -/
def Obligations.ReadJoypad12AnswersOnes : Prop :=
  ∀ (s : State) (lanes : Lanes) (a : Addr), s.rom.size ≤ 0xA00000 → a = 0xA10004 ∨ a = 0xA10006 →
    decode s.rom.size (.read lanes a) = .ok (.rdJoy12Data lanes a) ∧
    exec (.rdJoy12Data lanes a) s = .next { s with
      result := .word ((if lanes.h then 0xFF#8 else 0x00#8) ++ (if lanes.l then 0xFF#8 else 0x00#8)) }

/-- 40_bus_read.md R108; 42_joypad.md R190: each port's control byte, verbatim, on the low lane. -/
def Obligations.ReadJoypadControlAnswersByte : Prop :=
  ∀ (s : State) (lanes : Lanes), s.rom.size ≤ 0xA00000 →
    decode s.rom.size (.read lanes 0xA10008) = .ok (.rdJoyCtrl0 lanes) ∧
    exec (.rdJoyCtrl0 lanes) s = .next { s with
      result := .word (0#8 ++ (if lanes.l then s.joypads.p0.control else 0)) } ∧
    decode s.rom.size (.read lanes 0xA1000A) = .ok (.rdJoyCtrl1 lanes) ∧
    exec (.rdJoyCtrl1 lanes) s = .next { s with
      result := .word (0#8 ++ (if lanes.l then s.joypads.p1.control else 0)) } ∧
    decode s.rom.size (.read lanes 0xA1000C) = .ok (.rdJoyCtrl2 lanes) ∧
    exec (.rdJoyCtrl2 lanes) s = .next { s with
      result := .word (0#8 ++ (if lanes.l then s.joypads.p2.control else 0)) }

/-- 40_bus_read.md R112, R113: one facade call, whose word, any value, is masked to the requested lanes; its effect on
`S.vdp` is the facade's. -/
def Obligations.ReadVdpPortsMaskFacadeWord : Prop :=
  ∀ (s : State) (lanes : Lanes) (a : Addr), s.rom.size ≤ 0xA00000 →
    (a = 0xC00000 ∨ a = 0xC00002 →
      decode s.rom.size (.read lanes a) = .ok (.rdVdpData lanes a) ∧
      ∃ (w : Word) (e : Env) (v : Vdp),
        exec (.rdVdpData lanes a) s = .next { s with
          result := .word (w &&& ((if lanes.h then 0xFF00 else 0x0000) ||| (if lanes.l then 0x00FF else 0x0000)))
          env := e
          vdp := v
          trace := s.trace ++ [.vdpReadData w] }) ∧
    (a = 0xC00004 ∨ a = 0xC00006 →
      decode s.rom.size (.read lanes a) = .ok (.rdVdpCtrl lanes a) ∧
      ∃ (w : Word) (e : Env) (v : Vdp),
        exec (.rdVdpCtrl lanes a) s = .next { s with
          result := .word (w &&& ((if lanes.h then 0xFF00 else 0x0000) ||| (if lanes.l then 0x00FF else 0x0000)))
          env := e
          vdp := v
          trace := s.trace ++ [.vdpReadCtrl w] })

/-- 40_bus_read.md R116: `RD_WRAM`, each lane masked to 16 bits separately. -/
def Obligations.ReadWorkRamAnswersLanes : Prop :=
  ∀ (s : State) (lanes : Lanes) (a : Addr), s.rom.size ≤ 0xA00000 → 0xE00000 ≤ a.toNat →
    decode s.rom.size (.read lanes a) = .ok (.rdWram lanes a) ∧
    exec (.rdWram lanes a) s = .next { s with
      result := .word (
        (if lanes.h then s.workRam.read (a.toNat % 0x10000) else 0) ++
          (if lanes.l then s.workRam.read ((a.toNat + 1) % 0x10000) else 0)) }

/-- 40_bus_read.md R117: every other address answers 0 and logs; among them the addresses above the image and below
secondary RAM, the version register, and the odd port addresses. -/
def Obligations.ReadUnmappedLogsInvalid : Prop :=
  ∀ (s : State) (lanes : Lanes) (a : Addr), s.rom.size ≤ 0xA00000 →
    (s.rom.size ≤ a.toNat ∧ a.toNat ≤ 0x9FFFFF ∨ a = 0xA10000 ∨ a = 0xA10001 ∨ a = 0xA10003 ∨ a = 0xC00001 ∨
      isUnmapped s.rom.size a = true) →
    decode s.rom.size (.read lanes a) = .ok (.rdInvalid lanes a) ∧
    exec (.rdInvalid lanes a) s = .next { s with
      result := .word 0x0000, diag := s.diag ++ [.invalidAddress .R a] }

/-- 40_bus_read.md R118: no bus read answers outside its requested lanes. -/
def Obligations.BusReadStaysInLanes : Prop :=
  ∀ (callback : Option Handle) (lanes : Lanes) (a : Addr) (s : State),
    (busRead callback lanes a s).1 &&&
      ~~~((if lanes.h then 0xFF00#16 else 0x0000#16) ||| (if lanes.l then 0x00FF#16 else 0x0000#16)) = 0

/-! ### Primary-bus writes (41_bus_write.md) -/

/-- 41_bus_write.md R142: a ROM write is dropped and logged, whatever `writeable` holds; an address above the image and
inside the buffer is the default row's. -/
def Obligations.WriteRomIsRejected : Prop :=
  ∀ (s : State) (lanes : Lanes) (a : Addr) (v : Word),
    (a.toNat < s.rom.size →
      decode s.rom.size (.write lanes a v) = .ok (.wrRom lanes a v) ∧
      exec (.wrRom lanes a v) s = .next { s with result := .nothing, diag := s.diag ++ [.romWrite a] }) ∧
    (s.rom.size ≤ a.toNat → a.toNat < s.cfg.romCapacity → s.cfg.romCapacity ≤ 0xA00000 →
      decode s.rom.size (.write lanes a v) = .ok (.wrInvalid lanes a v) ∧
      exec (.wrInvalid lanes a v) s = .next { s with
        result := .nothing, diag := s.diag ++ [.invalidAddress .W a] })

/-- 41_bus_write.md R143: a two-lane write to secondary RAM stores neither lane and logs. -/
def Obligations.WriteSecondaryWordIsRejected : Prop :=
  ∀ (s : State) (a : Addr) (v : Word), s.rom.size ≤ 0xA00000 → 0xA00000 ≤ a.toNat → a.toNat ≤ 0xA01FFF →
    decode s.rom.size (.write .both a v) = .ok (.wrSramW a v) ∧
    exec (.wrSramW a v) s = .next { s with result := .nothing, diag := s.diag ++ [.busWidth .W a] }

/-- 41_bus_write.md R144: `WR_SRAM_B` stores the requested lane's byte at its index and leaves every other byte. The value
read back rests on the array's canonical form, part of the invariant. -/
def Obligations.WriteSecondaryByteStoresLane : Prop :=
  ∀ (s : State) (lanes : Lanes) (a : Addr) (v : Word), s.rom.size ≤ 0xA00000 →
    0xA00000 ≤ a.toNat → a.toNat ≤ 0xA01FFF → lanes ≠ .both →
    decode s.rom.size (.write lanes a v) = .ok (.wrSramB lanes a v) ∧
    ∃ m : Memory,
      exec (.wrSramB lanes a v) s = .next { s with secondaryRam := m, result := .nothing } ∧
      ∀ i, i = (if lanes.h then (a.toNat - 0xA00000) % 0x2000 else (a.toNat - 0xA00000 + 1) % 0x2000) →
        (∀ j, j ≠ i → m.read j = s.secondaryRam.read j) ∧
        (s.secondaryRam.wf 0x2000 = true →
          m.read i = if lanes.h then v.extractLsb' 8 8 else v.extractLsb' 0 8)

/-- 41_bus_write.md R145, R148 to R150, R153, R154: the stubs drop every write and log nothing. -/
def Obligations.StubWritesChangeNothing : Prop :=
  ∀ (s : State) (lanes : Lanes) (a : Addr) (v : Word), s.rom.size ≤ 0xA00000 →
    (a = 0xA04000 ∨ a = 0xA04002 →
      decode s.rom.size (.write lanes a v) = .ok (.wrSound lanes a v) ∧
      exec (.wrSound lanes a v) s = .next { s with result := .nothing }) ∧
    decode s.rom.size (.write lanes 0xA11000 v) = .ok (.wrMemmode lanes v) ∧
    exec (.wrMemmode lanes v) s = .next { s with result := .nothing } ∧
    decode s.rom.size (.write lanes 0xA11100 v) = .ok (.wrBusreq lanes v) ∧
    exec (.wrBusreq lanes v) s = .next { s with result := .nothing } ∧
    decode s.rom.size (.write lanes 0xA11200 v) = .ok (.wrZ80rst lanes v) ∧
    exec (.wrZ80rst lanes v) s = .next { s with result := .nothing } ∧
    decode s.rom.size (.write lanes 0xC00008 v) = .ok (.wrHv lanes v) ∧
    exec (.wrHv lanes v) s = .next { s with result := .nothing } ∧
    decode s.rom.size (.write lanes 0xC00010 v) = .ok (.wrPsg lanes v) ∧
    exec (.wrPsg lanes v) s = .next { s with result := .nothing }

/-- 41_bus_write.md R146; 42_joypad.md R188: each port's `data` becomes `V[7:0] AND control`, on the low lane only. -/
def Obligations.WriteJoypadDataIsMasked : Prop :=
  ∀ (s : State) (lanes : Lanes) (v : Word), s.rom.size ≤ 0xA00000 →
    decode s.rom.size (.write lanes 0xA10002 v) = .ok (.wrJoyData0 lanes v) ∧
    exec (.wrJoyData0 lanes v) s = .next { s with
      result := .nothing
      joypads := if lanes.l then
          { s.joypads with p0 := {
              control := s.joypads.p0.control, data := v.extractLsb' 0 8 &&& s.joypads.p0.control } }
        else s.joypads } ∧
    decode s.rom.size (.write lanes 0xA10004 v) = .ok (.wrJoyData1 lanes v) ∧
    exec (.wrJoyData1 lanes v) s = .next { s with
      result := .nothing
      joypads := if lanes.l then
          { s.joypads with p1 := {
              control := s.joypads.p1.control, data := v.extractLsb' 0 8 &&& s.joypads.p1.control } }
        else s.joypads } ∧
    decode s.rom.size (.write lanes 0xA10006 v) = .ok (.wrJoyData2 lanes v) ∧
    exec (.wrJoyData2 lanes v) s = .next { s with
      result := .nothing
      joypads := if lanes.l then
          { s.joypads with p2 := {
              control := s.joypads.p2.control, data := v.extractLsb' 0 8 &&& s.joypads.p2.control } }
        else s.joypads }

/-- 41_bus_write.md R147; 42_joypad.md R189: each port's `control` becomes `V[7:0]` verbatim, on the low lane only; `data`
is not re-masked. -/
def Obligations.WriteJoypadControlIsVerbatim : Prop :=
  ∀ (s : State) (lanes : Lanes) (v : Word), s.rom.size ≤ 0xA00000 →
    decode s.rom.size (.write lanes 0xA10008 v) = .ok (.wrJoyCtrl0 lanes v) ∧
    exec (.wrJoyCtrl0 lanes v) s = .next { s with
      result := .nothing
      joypads := if lanes.l then
          { s.joypads with p0 := { control := v.extractLsb' 0 8, data := s.joypads.p0.data } }
        else s.joypads } ∧
    decode s.rom.size (.write lanes 0xA1000A v) = .ok (.wrJoyCtrl1 lanes v) ∧
    exec (.wrJoyCtrl1 lanes v) s = .next { s with
      result := .nothing
      joypads := if lanes.l then
          { s.joypads with p1 := { control := v.extractLsb' 0 8, data := s.joypads.p1.data } }
        else s.joypads } ∧
    decode s.rom.size (.write lanes 0xA1000C v) = .ok (.wrJoyCtrl2 lanes v) ∧
    exec (.wrJoyCtrl2 lanes v) s = .next { s with
      result := .nothing
      joypads := if lanes.l then
          { s.joypads with p2 := { control := v.extractLsb' 0 8, data := s.joypads.p2.data } }
        else s.joypads }

/-- 41_bus_write.md R151: one facade call with `(V, H, L)`; only the facade's own effect on `S.vdp` follows. -/
def Obligations.WriteVdpDataCallsFacade : Prop :=
  ∀ (s : State) (lanes : Lanes) (a : Addr) (v : Word), s.rom.size ≤ 0xA00000 → a = 0xC00000 ∨ a = 0xC00002 →
    decode s.rom.size (.write lanes a v) = .ok (.wrVdpData lanes a v) ∧
    ∃ (e : Env) (p : Vdp),
      exec (.wrVdpData lanes a v) s = .next { s with
        result := .nothing, env := e, vdp := p, trace := s.trace ++ [.vdpWriteData v lanes] }

/-- 00_scope.md R12; 41_bus_write.md R152; 43_vdp_peek.md R210, R214; 20_memory.md R72; 60_exceptions.md R286: one facade
call, inside it every peek that the call issues and no other, in the order issued, each answering from ROM or work RAM as
they stood before the write, or 0 with one logged event; nothing is stored. That the peeks issued are the script's next, or
free where no script is left, is the model's choice (logs 5 and 6). -/
def Obligations.WriteVdpControlServesPeeks : Prop :=
  ∀ (s : State) (lanes : Lanes) (a : Addr) (v : Word), s.rom.size ≤ 0xA00000 → a = 0xC00004 ∨ a = 0xC00006 →
    decode s.rom.size (.write lanes a v) = .ok (.wrVdpCtrl lanes a v) ∧
    ∃ (t : State) (ps : List (Addr × Word)),
      exec (.wrVdpCtrl lanes a v) s = .next t ∧ SameStore s t ∧ t.result = .nothing ∧
      (∀ work rest, s.env.peekWork = work :: rest → ps.map Prod.fst = work) ∧
      (s.env.peekWork = [] → ps.map Prod.fst = Config.freePeekWork s.env.drawn) ∧
      t.env.peekWork = s.env.peekWork.tail ∧
      t.trace = s.trace ++ .vdpWriteCtrl v lanes :: ps.map (fun p => .peeked p.1 p.2) ∧
      t.diag = s.diag ++
        (ps.filter (fun p => decide (s.rom.size ≤ p.1.toNat ∧ p.1.toNat < 0xE00000))).map
          (fun p => .invalidAddress .P p.1) ∧
      ∀ p ∈ ps,
        (p.1.toNat < s.rom.size →
          p.2.extractLsb' 8 8 = s.rom.buffer.read p.1.toNat ∧
          (p.1.toNat + 1 < s.cfg.romCapacity → p.2.extractLsb' 0 8 = s.rom.buffer.read (p.1.toNat + 1))) ∧
        (0xE00000 ≤ p.1.toNat →
          p.2 = s.workRam.read (p.1.toNat % 0x10000) ++ s.workRam.read ((p.1.toNat + 1) % 0x10000)) ∧
        (s.rom.size ≤ p.1.toNat → p.1.toNat < 0xE00000 → p.2 = 0x0000)

/-- 41_bus_write.md R155: `WR_WRAM` stores each requested lane at its own index modulo 0x10000 and leaves every other
byte. The values read back rest on the array's canonical form, part of the invariant. -/
def Obligations.WriteWorkRamStoresLanes : Prop :=
  ∀ (s : State) (lanes : Lanes) (a : Addr) (v : Word), s.rom.size ≤ 0xA00000 → 0xE00000 ≤ a.toNat →
    decode s.rom.size (.write lanes a v) = .ok (.wrWram lanes a v) ∧
    ∃ m : Memory,
      exec (.wrWram lanes a v) s = .next { s with workRam := m, result := .nothing } ∧
      (∀ j, ¬(lanes.h = true ∧ j = a.toNat % 0x10000) → ¬(lanes.l = true ∧ j = (a.toNat + 1) % 0x10000) →
        m.read j = s.workRam.read j) ∧
      (s.workRam.wf 0x10000 = true →
        (lanes.h = true → m.read (a.toNat % 0x10000) = v.extractLsb' 8 8) ∧
        (lanes.l = true → m.read ((a.toNat + 1) % 0x10000) = v.extractLsb' 0 8))

/-- 41_bus_write.md R156: a write to any other address is dropped and logged. -/
def Obligations.WriteUnmappedLogsInvalid : Prop :=
  ∀ (s : State) (lanes : Lanes) (a : Addr) (v : Word), s.rom.size ≤ 0xA00000 →
    (s.rom.size ≤ a.toNat ∧ a.toNat ≤ 0x9FFFFF ∨ a = 0xA10000 ∨ a = 0xA10001 ∨ a = 0xA10003 ∨ a = 0xC00001 ∨
      isUnmapped s.rom.size a = true) →
    decode s.rom.size (.write lanes a v) = .ok (.wrInvalid lanes a v) ∧
    exec (.wrInvalid lanes a v) s = .next { s with
      result := .nothing, diag := s.diag ++ [.invalidAddress .W a] }

/-- 41_bus_write.md R157: no bus write changes the ROM, `S.pal` or `S.japanese`, and a write below the ROM size is
logged. -/
def Obligations.BusWriteKeepsRomAndFlags : Prop :=
  ∀ (lanes : Lanes) (a : Addr) (v : Word) (s : State),
    (busWrite lanes a v s).rom.buffer = s.rom.buffer ∧ (busWrite lanes a v s).rom.size = s.rom.size ∧
    (busWrite lanes a v s).rom.writeable = s.rom.writeable ∧ (busWrite lanes a v s).pal = s.pal ∧
    (busWrite lanes a v s).japanese = s.japanese ∧
    (a.toNat < s.rom.size → (busWrite lanes a v s).diag = s.diag ++ [.romWrite a])

/-! ### Memory as a program sees it (20_memory.md, 30_encoding.md R90, 70_reset_and_hazards.md R328) -/

/-- 20_memory.md R52, R63, R72: a word stored in work RAM is read back through every mirror, by the bus and by a peek. -/
def Obligations.WorkRamWordReadsBackThroughMirrors : Prop :=
  ∀ (s : State) (callback : Option Handle) (a a' : Addr) (v : Word), s.Inv →
    0xE00000 ≤ a.toNat → 0xE00000 ≤ a'.toNat → a.toNat % 0x10000 = a'.toNat % 0x10000 →
    (busRead callback .both a' (busWrite .both a v s)).1 = v ∧ (peek a' (busWrite .both a v s)).1 = v

/-- 00_scope.md R11: a byte stored by `MemWrite(a, 1, b)` in work RAM or secondary RAM is read back by `MemRead(a, 1)`, and
every other byte of both RAMs reads as before. The byte-address convention is the primary CPU's (G2). -/
def Obligations.MemoryByteReadsBack : Prop :=
  ∀ (s : State) (callback : Option Handle) (a : Addr) (b : Byte), s.Inv →
    0xE00000 ≤ a.toNat ∨ (0xA00000 ≤ a.toNat ∧ a.toNat ≤ 0xA01FFF) →
    (memReadByte callback a (memWriteByte a b s)).1 = b ∧
    ∀ a' : Addr,
      (0xE00000 ≤ a'.toNat ∧ ¬(0xE00000 ≤ a.toNat ∧ a'.toNat % 0x10000 = a.toNat % 0x10000)) ∨
        (0xA00000 ≤ a'.toNat ∧ a'.toNat ≤ 0xA01FFF ∧ a' ≠ a) →
      (memReadByte callback a' (memWriteByte a b s)).1 = (memReadByte callback a' s).1

/-- 20_memory.md R59, R67, R70: inside one CPU call, a word stored in work RAM is what the next read of that address
answers, fetches included. -/
def Obligations.CpuReadSeesItsEarlierWrite : Prop :=
  ∀ (s : State) (callback : Option Handle) (a : Addr) (v : Word), s.Inv → 0xE00000 ≤ a.toNat →
    (serveAll callback [⟨.write v, .both, a⟩, ⟨.read, .both, a⟩] s).trace =
      s.trace ++ [.cpuWrite .both a v, .cpuRead .both a v]

/-! ### The joypad protocol as a program uses it -/

/-- 42_joypad.md R193; 70_reset_and_hazards.md R324, R325: after `control = 0x40` and a data write, the very next read
shows the host's answer for every button of the group that bit 6 selects, a pressed one as 0, and 0 in the unused bits.
The two writes query nothing. The order of the queries is the model's (log 22). -/
def Obligations.TwoPhaseJoypadRead : Prop :=
  ∀ (s : State) (v : Word), ∃ t1 t2 t3 : State,
    exec (.wrJoyCtrl0 .low 0x0040) s = .next t1 ∧ exec (.wrJoyData0 .low v) t1 = .next t2 ∧
    exec (.rdJoy0Data .low) t2 = .next t3 ∧ t2.trace = s.trace ∧
    (v.getLsbD 6 = true → ∃ c b right left down up : Bool,
      t3.result = .word (0x00#8 ++ 0b01#2 ++ BitVec.ofBool (!c) ++ BitVec.ofBool (!b) ++ BitVec.ofBool (!right) ++
        BitVec.ofBool (!left) ++ BitVec.ofBool (!down) ++ BitVec.ofBool (!up)) ∧
      t3.trace = t2.trace ++
        [.query none .c (s.cfg.buttonIds.token .c) c, .query none .b (s.cfg.buttonIds.token .b) b,
         .query none .right (s.cfg.buttonIds.token .right) right,
         .query none .left (s.cfg.buttonIds.token .left) left,
         .query none .down (s.cfg.buttonIds.token .down) down,
         .query none .up (s.cfg.buttonIds.token .up) up]) ∧
    (v.getLsbD 6 = false → ∃ start a down up : Bool,
      t3.result = .word (0x00#8 ++ 0b00#2 ++ BitVec.ofBool (!start) ++ BitVec.ofBool (!a) ++ 0b00#2 ++
        BitVec.ofBool (!down) ++ BitVec.ofBool (!up)) ∧
      t3.trace = t2.trace ++
        [.query none .start (s.cfg.buttonIds.token .start) start, .query none .a (s.cfg.buttonIds.token .a) a,
         .query none .down (s.cfg.buttonIds.token .down) down,
         .query none .up (s.cfg.buttonIds.token .up) up])

/-- 44_frame_driver.md R230, R239; 42_joypad.md R182 to R186, R192: a joypad read inside a CPU call queries the callback
that the call was given, whichever it is, and nothing without the low lane; it answers and records as
`ReadJoypad0MultiplexesGroups` says of a standalone one. The order of the queries is the model's (log 22). -/
def Obligations.JoypadReadAsksItsCallsCallback : Prop :=
  ∀ (s : State) (callback : Option Handle) (lanes : Lanes), s.rom.size ≤ 0xA00000 →
    (lanes.l = false → busRead callback lanes 0xA10002 s = (0x0000, s)) ∧
    (lanes.l = true → s.joypads.p0.data.getLsbD 6 = true →
      ∃ (c b right left down up : Bool) (e : Env),
        busRead callback lanes 0xA10002 s =
          (0#8 ++ (s.joypads.p0.data |||
            (0#2 ++ BitVec.ofBool (!c) ++ BitVec.ofBool (!b) ++ BitVec.ofBool (!right) ++ BitVec.ofBool (!left) ++
              BitVec.ofBool (!down) ++ BitVec.ofBool (!up) : BitVec 8)),
          { s with
            env := e
            trace := s.trace ++
              [.query callback .c (s.cfg.buttonIds.token .c) c, .query callback .b (s.cfg.buttonIds.token .b) b,
               .query callback .right (s.cfg.buttonIds.token .right) right,
               .query callback .left (s.cfg.buttonIds.token .left) left,
               .query callback .down (s.cfg.buttonIds.token .down) down,
               .query callback .up (s.cfg.buttonIds.token .up) up] })) ∧
    (lanes.l = true → s.joypads.p0.data.getLsbD 6 = false →
      ∃ (start a down up : Bool) (e : Env),
        busRead callback lanes 0xA10002 s =
          (0#8 ++ (s.joypads.p0.data |||
            (0#2 ++ BitVec.ofBool (!start) ++ BitVec.ofBool (!a) ++ 0#2 ++ BitVec.ofBool (!down) ++
              BitVec.ofBool (!up) : BitVec 8)),
          { s with
            env := e
            trace := s.trace ++
              [.query callback .start (s.cfg.buttonIds.token .start) start,
               .query callback .a (s.cfg.buttonIds.token .a) a,
               .query callback .down (s.cfg.buttonIds.token .down) down,
               .query callback .up (s.cfg.buttonIds.token .up) up] }))

/-! ### Peeks (43_vdp_peek.md) -/

/-- 43_vdp_peek.md R211 to R213: a standalone peek of ROM, of work RAM, and of any other address. -/
def Obligations.PeeksAnswerFullWords : Prop :=
  ∀ (s : State) (a : Addr), s.rom.size ≤ 0xA00000 →
    (a.toNat < s.rom.size →
      decode s.rom.size (.peek a) = .ok (.peekRom a) ∧
      ∃ (low : Byte) (e : Env),
        exec (.peekRom a) s = .next { s with result := .word (s.rom.buffer.read a.toNat ++ low), env := e } ∧
        (a.toNat + 1 < s.cfg.romCapacity → low = s.rom.buffer.read (a.toNat + 1) ∧ e = s.env)) ∧
    (0xE00000 ≤ a.toNat →
      decode s.rom.size (.peek a) = .ok (.peekWram a) ∧
      exec (.peekWram a) s = .next { s with
        result := .word (s.workRam.read (a.toNat % 0x10000) ++ s.workRam.read ((a.toNat + 1) % 0x10000)) }) ∧
    (s.rom.size ≤ a.toNat → a.toNat < 0xE00000 →
      decode s.rom.size (.peek a) = .ok (.peekInvalid a) ∧
      exec (.peekInvalid a) s = .next { s with
        result := .word 0x0000, diag := s.diag ++ [.invalidAddress .P a] })

/-! ### Host operations (45_lifecycle.md, 70_reset_and_hazards.md) -/

/-- 70_reset_and_hazards.md R320 with the values of 10_state.md R39: the first `INIT`. With `INIT_ZEROES_STORE` false the
marked fields are any values, the drawn size within its bound. -/
def Obligations.InitEstablishesStore : Prop :=
  ∀ s : State, s.seq = none → s.initialised = false →
    ∃ t : State, exec .init s = .next t ∧
      t.diag = [] ∧ t.initialised = true ∧ t.trace = s.trace ++ [.vdpInit] ∧ t.result = .nothing ∧
      t.cfg = s.cfg ∧ t.pending = s.pending ∧ t.seq = none ∧ t.rom.size ≤ t.cfg.romCapacity ∧
      (s.cfg.initZeroesStore = true →
        (∀ i, t.rom.buffer.read i = 0x00) ∧ t.rom.size = 0 ∧ t.rom.writeable = false ∧
        (∀ i, t.workRam.read i = 0x00) ∧ (∀ i, t.secondaryRam.read i = 0x00) ∧
        t.joypads = { p0 := ⟨0x00, 0x00⟩, p1 := ⟨0x00, 0x00⟩, p2 := ⟨0x00, 0x00⟩ } ∧
        t.pal = false ∧ t.japanese = false)

/-- 70_reset_and_hazards.md R321; 10_state.md R40: `RESET` makes one CPU reset call and is otherwise the transactions the
CPU issues inside it; where those are all reads, nothing of the store changes. -/
def Obligations.ResetOnlyServesCpuTransactions : Prop :=
  ∀ s : State, s.seq = none → s.initialised = true →
    ∃ (t : State) (qs : List BusRequest) (e : Env),
      exec .reset s = .next t ∧
      t = { serveAll none qs { s with trace := s.trace ++ [.cpuReset], env := e } with result := .nothing } ∧
      ((∀ q ∈ qs, q.op = .read) → SameStore s t)

/-- 00_scope.md R12; 20_memory.md R59; 70_reset_and_hazards.md R321: the transactions of a CPU call are decoder calls, in
the order issued, each complete (and recorded with its result, log 8) before the next; and `RESET` is one such call. -/
def Obligations.CpuTransactionsAreDecoderCalls : Prop :=
  ∀ (s : State) (callback : Option Handle) (rest : List BusRequest) (lanes : Lanes) (a : Addr) (v : Word),
    serveAll callback [] s = s ∧
    (∃ (w : Word) (t : State), busRead callback lanes a s = (w, t) ∧
      serveAll callback (⟨.read, lanes, a⟩ :: rest) s =
        serveAll callback rest { t with trace := t.trace ++ [.cpuRead lanes a w] }) ∧
    (∃ t : State, busWrite lanes a v s = t ∧
      serveAll callback (⟨.write v, lanes, a⟩ :: rest) s =
        serveAll callback rest { t with trace := t.trace ++ [.cpuWrite lanes a v] }) ∧
    (s.seq = none → s.initialised = true →
      ∃ t : State, IsCpuCall .cpuReset none s t ∧ exec .reset s = .next { t with result := .nothing })

/-- 45_lifecycle.md R260, R261: an image that fits is copied and its size recorded; a larger one is logged and changes
nothing. The bytes read back rest on the buffer's canonical form, part of the invariant. -/
def Obligations.InstallRomCopiesOrLogs : Prop :=
  ∀ (s : State) (bytes : List Byte) (length : Nat), s.seq = none → length ≤ bytes.length →
    (length ≤ s.cfg.romCapacity →
      ∃ m : Memory,
        exec (.installRom bytes length) s = .next { s with
          rom := { buffer := m, size := length, writeable := s.rom.writeable }, result := .nothing } ∧
        (∀ i, length ≤ i → m.read i = s.rom.buffer.read i) ∧
        (s.rom.buffer.wf s.cfg.romCapacity = true → ∀ i, i < length → some (m.read i) = bytes[i]?)) ∧
    (s.cfg.romCapacity < length →
      exec (.installRom bytes length) s = .next { s with
        diag := s.diag ++ [.oversizedRom length], result := .nothing })

/-- 45_lifecycle.md R262 to R264: each setter stores `b != 0` in its flag and changes nothing else. -/
def Obligations.SettersStoreTheirFlag : Prop :=
  ∀ (s : State) (b : Int), s.seq = none →
    exec (.setRomWriteable b) s = .next { s with
      rom := { buffer := s.rom.buffer, size := s.rom.size, writeable := decide (b ≠ 0) }, result := .nothing } ∧
    exec (.setPal b) s = .next { s with pal := decide (b ≠ 0), result := .nothing } ∧
    exec (.setJapanese b) s = .next { s with japanese := decide (b ≠ 0), result := .nothing }

/-- 45_lifecycle.md R265: `STATE_SIZE` answers the parameter, before `INIT` too, and changes nothing. -/
def Obligations.StateSizeAnswersParameter : Prop :=
  ∀ s : State, s.seq = none → exec .stateSize s = .next { s with result := .size s.cfg.stateSize }

/-- 45_lifecycle.md R269, D19; I18, I20: the host calls the model refuses. -/
def Obligations.BrokenHostDutiesAreRefused : Prop :=
  ∀ (s : State) (bytes : List Byte) (length : Nat) (b : Int) (scb iqc : Handle),
    (∀ p, s.seq = some p →
      ∀ i ∈ [Instr.init, .reset, .installRom bytes length, .setRomWriteable b, .setPal b, .setJapanese b,
        .runFrame scb iqc, .stateSize], exec i s = .refused .reentered) ∧
    (s.seq = none →
      (s.initialised = true → exec .init s = .refused .secondInit) ∧
      (s.initialised = false →
        exec .reset s = .refused .notInitialised ∧ exec (.runFrame scb iqc) s = .refused .notInitialised) ∧
      (bytes.length < length → exec (.installRom bytes length) s = .refused .romBufferTooShort))

/-- 70_reset_and_hazards.md R323: a machine just allocated serves the boot order through its first frame. -/
def Obligations.BootOrderRuns : Prop :=
  ∀ (s : State) (bytes : List Byte) (length : Nat) (pal japanese writeable : Int) (scb iqc : Handle)
    (rest : List Request), s.seq = none → s.initialised = false → length ≤ bytes.length →
    s.pending = .host .init :: .host (.installRom bytes length) :: .host (.setPal pal) ::
      .host (.setJapanese japanese) :: .host (.setRomWriteable writeable) :: .host .reset ::
      .host (.runFrame scb iqc) :: rest →
    ∃ t : State, Host.Core.run Sys2Proof.core 7 s = .next t ∧
      t.pending = rest ∧ t.initialised = true ∧ t.seq = none ∧ t.pal = decide (pal ≠ 0) ∧
      t.japanese = decide (japanese ≠ 0) ∧ t.rom.writeable = decide (writeable ≠ 0) ∧
      (length ≤ s.cfg.romCapacity → t.rom.size = length)

/-! ### The frame (44_frame_driver.md) -/

/-- 44_frame_driver.md R241; 45_lifecycle.md R266: `RUN_FRAME` completes, answers nothing, leaves no position, and makes
the counted calls. -/
def Obligations.FrameCallCounts : Prop :=
  ∀ (s : State) (scb iqc : Handle), s.seq = none → s.initialised = true →
    ∃ (t : State) (tr : List Event),
      exec (.runFrame scb iqc) s = .next t ∧ t.result = .nothing ∧ t.seq = none ∧ t.trace = s.trace ++ tr ∧
      tr.count .cpuStep = 2 * units s.cfg s.pal * s.cfg.visibleLines ∧
      tr.filterMap renderedLine = List.range s.cfg.visibleLines ∧
      tr.count (.cpuInterrupt .level4) ≤ s.cfg.visibleLines ∧
      tr.count (.cpuInterrupt .level6) ≤ 1 ∧
      ∀ before after, tr = before ++ .cpuInterrupt .level6 :: after → .cpuInterrupt .level4 ∉ after

/-- 44_frame_driver.md R230, R233 to R237, R239; 42_joypad.md R192: the sequencer's own calls are, line by line in
increasing order, `2U` steps, the render, the hint test and its level-4 request; then the vint test and its level-6
request; and every query made inside any of them goes to this frame's input-query callback. -/
def Obligations.FrameCallTrace : Prop :=
  ∀ (s : State) (scb iqc : Handle), s.seq = none → s.initialised = true →
    ∃ (t : State) (tr : List Event) (hints : List Bool) (vint : Bool),
      exec (.runFrame scb iqc) s = .next t ∧ t.trace = s.trace ++ tr ∧ hints.length = s.cfg.visibleLines ∧
      tr.filter isSequencerCall = linesCalls (units s.cfg s.pal) scb 0 hints ++ endCalls vint ∧
      ∀ callback button token pressed,
        .query callback button token pressed ∈ tr → callback = some iqc

/-- 00_scope.md R12; 44_frame_driver.md R230, R233 to R237, R239, R240: `RUN_FRAME` is the rows of the position table, and
each row is written out: a `cpu_step` row and an interrupt request serve that CPU call's transactions by the decoder's
rules, with the frame's input-query callback; the render and the flag tests change `env`, `vdp` and the trace alone and
take none of the CPU's transactions; where a flag is false no request is made. Three clauses are the model's choice: that
the render issues no transaction, so that its row changes those fields alone, follows R12 over R230 (log 16, DEDUCED);
that it makes exactly one scanline callback is log 17 (DEDUCED); which transactions a CPU call issues is logs 5 and 6. -/
def Obligations.FrameRowsServeCpuTransactions : Prop :=
  ∀ (s : State) (scb iqc : Handle) (U l u : Nat),
    (s.seq = none → s.initialised = true →
      exec (.runFrame scb iqc) s = .next {
        advanceMany ⟨scb, iqc⟩ (units s.cfg s.pal) (s.cfg.visibleLines * (2 * units s.cfg s.pal + 1) + 1)
          { s with seq := some (if 0 < s.cfg.visibleLines then .lines 0 0 false else .vint) } with
        seq := none, result := .nothing }) ∧
    (s.seq = some (.lines l u false) → u < U →
      ∃ t : State, IsCpuCall .cpuStep (some iqc) s t ∧
        advance ⟨scb, iqc⟩ U s = { t with seq := some (.lines l u true) }) ∧
    (s.seq = some (.lines l u true) →
      ∃ t : State, IsCpuCall .cpuStep (some iqc) s t ∧
        advance ⟨scb, iqc⟩ U s = { t with seq := some (.lines l (u + 1) false) }) ∧
    (s.seq = some (.lines l U false) →
      ∃ (image : Image) (hint : Bool) (e : Env) (v : Vdp) (r t : State),
        r = { s with
          env := e
          vdp := v
          trace := s.trace ++ [.vdpRender l scb, .scanline scb l image, .vdpHintEnabled hint] } ∧
        e.cpuWork = s.env.cpuWork ∧
        (hint = true → IsCpuCall (.cpuInterrupt .level4) (some iqc) r t) ∧ (hint = false → t = r) ∧
        advance ⟨scb, iqc⟩ U s =
          { t with seq := some (if l + 1 < s.cfg.visibleLines then .lines (l + 1) 0 false else .vint) }) ∧
    (s.seq = some .vint →
      ∃ (vint : Bool) (e : Env) (v : Vdp) (r t : State),
        r = { s with env := e, vdp := v, trace := s.trace ++ [.vdpVintEnabled vint] } ∧
        e.cpuWork = s.env.cpuWork ∧
        (vint = true → IsCpuCall (.cpuInterrupt .level6) (some iqc) r t) ∧ (vint = false → t = r) ∧
        advance ⟨scb, iqc⟩ U s = { t with seq := some .done })

/-- 44_frame_driver.md R240 against R230: the frame's loops are the position table run from its first row to `DONE`. -/
def Obligations.RunFrameFollowsPositionTable : Prop :=
  ∀ (cb : Callbacks) (s : State),
    advanceMany cb (units s.cfg s.pal) (s.cfg.visibleLines * (2 * units s.cfg s.pal + 1) + 1) (startFrame s) =
      runFrame cb s ∧
    (runFrame cb s).seq = some .done

/-- 44_frame_driver.md R231, R232: the budget, its divisions composed. -/
def Obligations.UnitsAreOneDivision : Prop :=
  ∀ (p : Params) (pal : Bool),
    units p pal =
      (if pal then p.mclkPal else p.mclkNtsc) /
        ((if pal then 50 else 60) * p.linesPerFrame * p.cpuDiv * 2)

/-- 44_frame_driver.md R243: with the general-knowledge clocks the PAL budget is never smaller, and larger for every
divisor product up to 169182. -/
def Obligations.PalBudgetIsLarger : Prop :=
  ∀ p : Params, p.mclkPal = 53203424 → p.mclkNtsc = 53693175 → 0 < p.linesPerFrame → 0 < p.cpuDiv →
    units p false ≤ units p true ∧
    (p.linesPerFrame * p.cpuDiv * 2 ≤ 169182 → units p false < units p true)

/-! ### Whole-machine rules -/

/-- 10_state.md R39: the store right after reset, every byte read through the model's read of one byte. The parameters
and the model's own fields of that state are the model's choice (logs 3, 4, 7, 9) and nothing is said of them. -/
def Obligations.ResetStoreIsR39 : Prop :=
  (∀ i, State.reset.rom.buffer.read i = 0x00) ∧ State.reset.rom.size = 0 ∧ State.reset.rom.writeable = false ∧
  (∀ i, State.reset.workRam.read i = 0x00) ∧ (∀ i, State.reset.secondaryRam.read i = 0x00) ∧
  (∀ n, State.reset.joypads.get n = ⟨0x00, 0x00⟩) ∧ State.reset.pal = false ∧ State.reset.japanese = false ∧
  State.reset.diag = []

/-- The invariant of 10_state.md R38 holds after reset. -/
def Obligations.ResetMeetsInv : Prop := State.reset.Inv

/-- 10_state.md R38: every step keeps the invariant. -/
def Obligations.StepKeepsInv : Prop :=
  ∀ s t : State, s.Inv → step s = .next t → t.Inv

/-- 10_state.md R22, R23, R30, R31, R38: the ROM and the flags are written by their own operations and `INIT` alone, and no
instruction writes a parameter. -/
def Obligations.OnlyOwnOperationsWriteRomAndFlags : Prop :=
  ∀ (i : Instr) (s t : State), exec i s = .next t →
    t.cfg = s.cfg ∧
    ((∃ bytes length, i = .installRom bytes length) ∨ i = .init ∨
      (t.rom.buffer = s.rom.buffer ∧ t.rom.size = s.rom.size)) ∧
    ((∃ b, i = .setRomWriteable b) ∨ i = .init ∨ t.rom.writeable = s.rom.writeable) ∧
    ((∃ b, i = .setPal b) ∨ i = .init ∨ t.pal = s.pal) ∧
    ((∃ b, i = .setJapanese b) ∨ i = .init ∨ t.japanese = s.japanese)

/-- 10_state.md R23, R31, R33; 60_exceptions.md R287: two machines that differ only in the log, `S.rom.writeable` and
`S.japanese` make the same step, and differ after it in those alone. -/
def Obligations.UnreadFieldsDoNotInfluenceSteps : Prop :=
  ∀ s t : State, AgreeButUnread s t → OutcomesAgree AgreeButUnread (step s) (step t)

/-- 10_state.md R33: only `INIT` takes anything out of the log. -/
def Obligations.DiagnosticsAreAppendOnly : Prop :=
  ∀ (i : Instr) (s t : State), exec i s = .next t → i = .init ∨ ∃ ds, t.diag = s.diag ++ ds

/-- 60_exceptions.md R286: a bus read, a peek, and a bus write other than a VDP control-port write log at most one
event. -/
def Obligations.TransactionsLogAtMostOnce : Prop :=
  ∀ (callback : Option Handle) (lanes : Lanes) (a : Addr) (v : Word) (s : State),
    (∃ ds, (busRead callback lanes a s).2.diag = s.diag ++ ds ∧ ds.length ≤ 1) ∧
    (∃ ds, (peek a s).2.diag = s.diag ++ ds ∧ ds.length ≤ 1) ∧
    (s.rom.size ≤ 0xA00000 → a ≠ 0xC00004 → a ≠ 0xC00006 →
      ∃ ds, (busWrite lanes a v s).diag = s.diag ++ ds ∧ ds.length ≤ 1)

/-- A frame changes the store only through the CPU's own transactions: never the parameters, the ROM, the flags or the
requests (44_frame_driver.md R230; 45_lifecycle.md R266). -/
def Obligations.FrameKeepsConfiguration : Prop :=
  ∀ (s t : State) (scb iqc : Handle), exec (.runFrame scb iqc) s = .next t → SameConfiguration s t
end

