-- ==== Sys2Proof/Laws/Decode.lean ====
section
/-! SUPPORT. The laws of the descriptor and of the masks that 30_encoding.md R87 uses: the fields of an assembled
descriptor, a match split into its flag bits and its address bits, and what each address mask says of the address. -/

namespace Sys2Proof

/-! ### The fields of an assembled descriptor -/

@[simp] theorem descriptor_p (p w : Bool) (lanes : Lanes) (a : Addr) : Descriptor.p (descriptor p w lanes a) = p := by
  unfold Descriptor.p descriptor
  rw [BitVec.getLsbD_append]
  simp only [BitVec.getLsbD_append]
  simp

@[simp] theorem descriptor_w (p w : Bool) (lanes : Lanes) (a : Addr) : Descriptor.w (descriptor p w lanes a) = w := by
  unfold Descriptor.w descriptor
  rw [BitVec.getLsbD_append]
  simp only [BitVec.getLsbD_append]
  simp

@[simp] theorem descriptor_h (p w : Bool) (lanes : Lanes) (a : Addr) :
    Descriptor.h (descriptor p w lanes a) = lanes.h := by
  unfold Descriptor.h descriptor
  rw [BitVec.getLsbD_append]
  simp only [BitVec.getLsbD_append]
  simp

@[simp] theorem descriptor_l (p w : Bool) (lanes : Lanes) (a : Addr) :
    Descriptor.l (descriptor p w lanes a) = lanes.l := by
  unfold Descriptor.l descriptor
  rw [BitVec.getLsbD_append]
  simp only [BitVec.getLsbD_append]
  simp

@[simp] theorem descriptor_addr (p w : Bool) (lanes : Lanes) (a : Addr) :
    Descriptor.addr (descriptor p w lanes a) = a := by
  unfold Descriptor.addr descriptor
  exact BitVec.extractLsb'_append_eq_right

@[simp] theorem descriptor_lanes? (p w : Bool) (lanes : Lanes) (a : Addr) :
    Descriptor.lanes? (descriptor p w lanes a) = some lanes := by
  unfold Descriptor.lanes?
  rw [descriptor_h, descriptor_l]
  cases lanes <;> rfl

/-- The four flag bits `P W H L` of a descriptor. -/
def Descriptor.flags (t : Descriptor) : BitVec 4 := t.extractLsb' 24 4

@[simp] theorem descriptor_flags (p w : Bool) (lanes : Lanes) (a : Addr) :
    Descriptor.flags (descriptor p w lanes a) =
      BitVec.ofBool p ++ BitVec.ofBool w ++ BitVec.ofBool lanes.h ++ BitVec.ofBool lanes.l := by
  unfold Descriptor.flags descriptor
  exact BitVec.extractLsb'_append_eq_left

/-- A descriptor is its flag bits and its address. -/
theorem Descriptor.ext_fields {s t : Descriptor} (hf : s.flags = t.flags) (ha : s.addr = t.addr) : s = t := by
  have h : ∀ u : Descriptor, u = u.flags ++ u.addr := fun u => by
    unfold Descriptor.flags Descriptor.addr
    refine BitVec.eq_of_getLsbD_eq fun i hi => ?_
    rw [BitVec.getLsbD_append]
    simp only [BitVec.getLsbD_extractLsb']
    by_cases h : i < 24
    · simp [h]
    · have : 24 + (i - 24) = i := by omega
      simp [h, this]
      omega
  rw [h s, h t, hf, ha]

/-- The flag bits are `P`, `W`, `H` and `L`, in this order (R80). -/
theorem Descriptor.flags_eq (t : Descriptor) :
    t.flags = BitVec.ofBool t.p ++ BitVec.ofBool t.w ++ BitVec.ofBool t.h ++ BitVec.ofBool t.l := by
  unfold Descriptor.flags Descriptor.p Descriptor.w Descriptor.h Descriptor.l
  refine BitVec.eq_of_getLsbD_eq fun i hi => ?_
  rw [BitVec.getLsbD_append, BitVec.getLsbD_append, BitVec.getLsbD_append]
  interval_cases i <;> simp

/-- A match under a mask, split into the flag bits and the address bits. -/
theorem Descriptor.and_eq_iff (t mask pattern : Descriptor) :
    t &&& mask = pattern ↔ t.flags &&& mask.flags = pattern.flags ∧ t.addr &&& mask.addr = pattern.addr := by
  have hf : (t &&& mask).flags = t.flags &&& mask.flags := BitVec.extractLsb'_and
  have ha : (t &&& mask).addr = t.addr &&& mask.addr := BitVec.extractLsb'_and
  constructor
  · rintro rfl
    exact ⟨hf.symm, ha.symm⟩
  · rintro ⟨h1, h2⟩
    exact Descriptor.ext_fields (hf.trans h1) (ha.trans h2)

/-- A row of R87 on an assembled descriptor: its flag bits, its address bits and its condition. -/
theorem TableRow.fits_descriptor {ρ : Type} (size : Nat) (p w : Bool) (lanes : Lanes) (a : Addr) (r : TableRow ρ) :
    r.fits size (descriptor p w lanes a) = true ↔
      ((BitVec.ofBool p ++ BitVec.ofBool w ++ BitVec.ofBool lanes.h ++ BitVec.ofBool lanes.l) &&& r.mask.flags =
          r.pattern.flags ∧ a &&& r.mask.addr = r.pattern.addr) ∧
        match r.condition with
        | .always => True
        | .belowRomSize => a.toNat < size
        | .oneLane => lanes ≠ .both := by
  unfold TableRow.fits
  rw [Bool.and_eq_true, beq_iff_eq, Descriptor.and_eq_iff, descriptor_flags, descriptor_addr]
  refine and_congr Iff.rfl ?_
  cases r.condition
  · simp [RowCondition.holds]
  · simp [RowCondition.holds]
  · cases lanes <;> simp [RowCondition.holds, Lanes.h, Lanes.l]
/-! ### What each address mask of R87 says -/

/-- Mask `0xFFFFFF`: the one listed address. -/
theorem addr_and_exact (a c : Addr) : a &&& 0xFFFFFF#24 = c ↔ a = c := by
  rw [show (0xFFFFFF#24 : Addr) = BitVec.allOnes 24 from rfl, BitVec.and_allOnes]

/-- The one bit that mask `0xFFFFFD` leaves free. -/
theorem addr_and_two (a : Addr) : a &&& 2#24 = 0#24 ∨ a &&& 2#24 = 2#24 := by
  have bit_of_two : ∀ i, (2#24).getLsbD i = decide (i = 1) := fun i => by
    by_cases h : i < 24
    · interval_cases i <;> rfl
    · rw [BitVec.getLsbD_of_ge _ _ (by omega)]
      simp
      omega
  cases h : a.getLsbD 1
  · left
    refine BitVec.eq_of_getLsbD_eq fun i _ => ?_
    rw [BitVec.getLsbD_and, bit_of_two]
    by_cases hi : i = 1
    · rw [hi, h]
      rfl
    · simp [hi]
  · right
    refine BitVec.eq_of_getLsbD_eq fun i _ => ?_
    rw [BitVec.getLsbD_and, bit_of_two]
    by_cases hi : i = 1
    · rw [hi, h]
      rfl
    · simp [hi]

/-- Mask `0xFFFFFD`: the listed address and the next even one. -/
theorem addr_and_pair (a c : Addr) (hc : c &&& 2#24 = 0#24) : a &&& 0xFFFFFD#24 = c ↔ a = c ∨ a = c ||| 2#24 := by
  have split_a : a = (a &&& 0xFFFFFD#24) ||| (a &&& 2#24) := by
    rw [← BitVec.and_or_distrib_left]
    exact (BitVec.and_allOnes).symm
  have bit_a := addr_and_two a
  constructor
  · intro h
    rw [h] at split_a
    rcases bit_a with hb | hb <;> rw [hb] at split_a
    · left
      simpa using split_a
    · right
      exact split_a
  · have keep : c &&& 0xFFFFFD#24 = c := by
      have hcs : c = (c &&& 0xFFFFFD#24) ||| (c &&& 2#24) := by
        rw [← BitVec.and_or_distrib_left]
        exact (BitVec.and_allOnes).symm
      rw [hc] at hcs
      simpa using hcs.symm
    rintro (rfl | rfl)
    · exact keep
    · rw [BitVec.and_or_distrib_right, keep]
      simp

/-- Mask `0xFFE000` at `0xA00000`: the secondary-RAM range. -/
theorem addr_and_secondary (a : Addr) : a &&& 0xFFE000#24 = 0xA00000#24 ↔ inSecondaryRam a = true := by
  have hmask : a &&& 0xFFE000#24 = (a >>> 13) <<< 13 := by
    ext i hi
    simp
    interval_cases i <;> simp
  have hnat : ((a >>> 13) <<< 13).toNat = a.toNat / 8192 * 8192 := by
    simp [BitVec.toNat_shiftLeft, BitVec.toNat_ushiftRight, Nat.shiftLeft_eq, Nat.shiftRight_eq_div_pow]
    omega
  rw [hmask, ← BitVec.toNat_inj, hnat]
  simp only [inSecondaryRam, decide_eq_true_eq, BitVec.toNat_ofNat]
  omega

/-- Mask `0xE00000` at `0xE00000`: the work-RAM range. -/
theorem addr_and_work (a : Addr) : a &&& 0xE00000#24 = 0xE00000#24 ↔ inWorkRam a = true := by
  have hmask : a &&& 0xE00000#24 = (a >>> 21) <<< 21 := by
    ext i hi
    simp
    interval_cases i <;> simp
  have hnat : ((a >>> 21) <<< 21).toNat = a.toNat / 2097152 * 2097152 := by
    simp [BitVec.toNat_shiftLeft, BitVec.toNat_ushiftRight, Nat.shiftLeft_eq, Nat.shiftRight_eq_div_pow]
    omega
  have := a.isLt
  rw [hmask, ← BitVec.toNat_inj, hnat]
  simp only [inWorkRam, decide_eq_true_eq, BitVec.toNat_ofNat]
  omega

/-! ### Decoding a legal request -/

theorem decode_read (size : Nat) (lanes : Lanes) (a : Addr) :
    decode size (.read lanes a) = .ok (.ofRead lanes a (selectRead size (descriptor false false lanes a))) := by
  simp [decode, Request.read]

theorem decode_write (size : Nat) (lanes : Lanes) (a : Addr) (v : Word) :
    decode size (.write lanes a v) = .ok (.ofWrite lanes a v (selectWrite size (descriptor false true lanes a))) := by
  simp [decode, Request.write]

theorem decode_peek (size : Nat) (a : Addr) :
    decode size (.peek a) = .ok (.ofPeek a (selectPeek size (descriptor true false .both a))) := by
  simp [decode, Request.peek]

/-- The address patterns of the three joypad rows name ports 0, 1 and 2 (30_encoding.md R92). -/
theorem port_of_address :
    Machine.dataPort 0xA10002 = .p0 ∧ Machine.dataPort 0xA10004 = .p1 ∧ Machine.dataPort 0xA10006 = .p2 ∧
      Machine.controlPort 0xA10008 = .p0 ∧ Machine.controlPort 0xA1000A = .p1 ∧
      Machine.controlPort 0xA1000C = .p2 := by
  decide

end Sys2Proof
end

