-- ==== Sys2Proof/Laws/Memory.lean ====
section
/-! SUPPORT. The laws of one storage array: a read after a write, and that every operation keeps the canonical form. -/

namespace Sys2Proof.Machine

/-! ### Lists of cells -/

theorem risingFrom_mono {low low' : Nat} (h : low' ≤ low) :
    ∀ {cs : List Host.Cell}, risingFrom low cs = true → risingFrom low' cs = true
  | [], _ => rfl
  | (k, c) :: rest, hr => by
    simp only [risingFrom, Bool.and_eq_true, decide_eq_true_eq] at hr ⊢
    exact ⟨le_trans h hr.1, hr.2⟩

/-- An index below every listed one is not listed. -/
theorem lookupCell_below {i low : Nat} (h : i < low) :
    ∀ {cs : List Host.Cell}, risingFrom low cs = true → lookupCell i cs = none
  | [], _ => rfl
  | (k, c) :: rest, hr => by
    simp only [risingFrom, Bool.and_eq_true, decide_eq_true_eq] at hr
    have hk : k ≠ i := by omega
    rw [lookupCell, if_neg hk]
    exact lookupCell_below (by omega) hr.2

theorem lookupCell_insertCell_same (i : Nat) (b : Byte) :
    ∀ cs : List Host.Cell, lookupCell i (insertCell i b cs) = some b
  | [] => by simp [insertCell, lookupCell]
  | (k, c) :: rest => by
    unfold insertCell
    split
    · simp [lookupCell]
    · split
      · simp [lookupCell]
      · rename_i _ hne
        rw [lookupCell, if_neg (fun h => hne h.symm)]
        exact lookupCell_insertCell_same i b rest

theorem lookupCell_insertCell_ne {i j : Nat} (b : Byte) (h : j ≠ i) :
    ∀ cs : List Host.Cell, lookupCell j (insertCell i b cs) = lookupCell j cs
  | [] => by simp [insertCell, lookupCell, Ne.symm h]
  | (k, c) :: rest => by
    unfold insertCell
    split
    · rw [lookupCell, if_neg (Ne.symm h)]
    · split
      · rename_i _ hk
        subst hk
        simp [lookupCell, Ne.symm h]
      · simp only [lookupCell]
        split
        · rfl
        · exact lookupCell_insertCell_ne b h rest

theorem lookupCell_eraseCell_same {i low : Nat} :
    ∀ {cs : List Host.Cell}, risingFrom low cs = true → lookupCell i (eraseCell i cs) = none
  | [], _ => rfl
  | (k, c) :: rest, hr => by
    simp only [risingFrom, Bool.and_eq_true, decide_eq_true_eq] at hr
    unfold eraseCell
    split
    · rename_i hk
      exact lookupCell_below (by omega) hr.2
    · rename_i hk
      rw [lookupCell, if_neg hk]
      exact lookupCell_eraseCell_same hr.2

theorem lookupCell_eraseCell_ne {i j : Nat} (h : j ≠ i) :
    ∀ cs : List Host.Cell, lookupCell j (eraseCell i cs) = lookupCell j cs
  | [] => rfl
  | (k, c) :: rest => by
    unfold eraseCell
    split
    · rename_i hk
      subst hk
      simp [lookupCell, Ne.symm h]
    · simp only [lookupCell]
      split
      · rfl
      · exact lookupCell_eraseCell_ne h rest

theorem risingFrom_insertCell {i : Nat} (b : Byte) :
    ∀ {low : Nat} {cs : List Host.Cell}, low ≤ i → risingFrom low cs = true → risingFrom low (insertCell i b cs) = true
  | low, [], hl, _ => by simp [insertCell, risingFrom, hl]
  | low, (k, c) :: rest, hl, hr => by
    have hr' := hr
    simp only [risingFrom, Bool.and_eq_true, decide_eq_true_eq] at hr'
    unfold insertCell
    split
    · rename_i hik
      simp only [risingFrom, Bool.and_eq_true, decide_eq_true_eq]
      exact ⟨hl, by omega, hr'.2⟩
    · split
      · rename_i _ hik
        subst hik
        simp only [risingFrom, Bool.and_eq_true, decide_eq_true_eq]
        exact hr'
      · simp only [risingFrom, Bool.and_eq_true, decide_eq_true_eq]
        exact ⟨hr'.1, risingFrom_insertCell b (by omega) hr'.2⟩

theorem risingFrom_eraseCell {i : Nat} :
    ∀ {low : Nat} {cs : List Host.Cell}, risingFrom low cs = true → risingFrom low (eraseCell i cs) = true
  | _, [], _ => rfl
  | low, (k, c) :: rest, hr => by
    simp only [risingFrom, Bool.and_eq_true, decide_eq_true_eq] at hr
    unfold eraseCell
    split
    · exact risingFrom_mono (by omega) hr.2
    · simp only [risingFrom, Bool.and_eq_true, decide_eq_true_eq]
      exact ⟨hr.1, risingFrom_eraseCell hr.2⟩

/-- A check that every cell passes still does after setting one that passes it. -/
theorem all_insertCell {p : Host.Cell → Bool} {i : Nat} {b : Byte} (hp : p (i, b) = true) :
    ∀ {cs : List Host.Cell}, cs.all p = true → (insertCell i b cs).all p = true
  | [], _ => by simp [insertCell, hp]
  | (k, c) :: rest, h => by
    simp only [List.all_cons, Bool.and_eq_true] at h
    unfold insertCell
    split
    · simp only [List.all_cons, Bool.and_eq_true]
      exact ⟨hp, h.1, h.2⟩
    · split
      · simp only [List.all_cons, Bool.and_eq_true]
        exact ⟨hp, h.2⟩
      · simp only [List.all_cons, Bool.and_eq_true]
        exact ⟨h.1, all_insertCell hp h.2⟩

theorem all_eraseCell {p : Host.Cell → Bool} {i : Nat} :
    ∀ {cs : List Host.Cell}, cs.all p = true → (eraseCell i cs).all p = true
  | [], _ => rfl
  | (k, c) :: rest, h => by
    simp only [List.all_cons, Bool.and_eq_true] at h
    unfold eraseCell
    split
    · exact h.2
    · simp only [List.all_cons, Bool.and_eq_true]
      exact ⟨h.1, all_eraseCell h.2⟩

/-! ### Arrays -/

@[simp] theorem Memory.write_fill (m : Memory) (i : Nat) (b : Byte) : (m.write i b).fill = m.fill := by
  unfold Memory.write
  split <;> rfl

@[simp] theorem Memory.write_unlisted (m : Memory) (i : Nat) (b : Byte) (j : Nat) :
    (m.write i b).unlisted j = m.unlisted j := by simp [Memory.unlisted]

/-- A read after a write to the same index gives the value written. -/
theorem Memory.read_write_same {size : Nat} {m : Memory} (h : m.wf size = true) (i : Nat) (b : Byte) :
    (m.write i b).read i = b := by
  simp only [Memory.wf, Bool.and_eq_true] at h
  unfold Memory.write
  split
  · rename_i hb
    simp only [Memory.read, lookupCell_eraseCell_same h.1, Option.getD_none]
    exact hb.symm
  · simp [Memory.read, lookupCell_insertCell_same]

/-- A write leaves every other index alone. -/
theorem Memory.read_write_ne (m : Memory) {i j : Nat} (b : Byte) (h : j ≠ i) : (m.write i b).read j = m.read j := by
  unfold Memory.write
  split
  · simp only [Memory.read, lookupCell_eraseCell_ne h]
    rfl
  · simp only [Memory.read, lookupCell_insertCell_ne b h]
    rfl

/-- A write inside the array keeps its canonical form. -/
theorem Memory.write_wf {size : Nat} {m : Memory} (h : m.wf size = true) {i : Nat} (hi : i < size) (b : Byte) :
    (m.write i b).wf size = true := by
  simp only [Memory.wf, Bool.and_eq_true] at h ⊢
  simp only [Memory.write_unlisted]
  unfold Memory.write
  split
  · exact ⟨risingFrom_eraseCell h.1, all_eraseCell h.2⟩
  · rename_i hb
    refine ⟨risingFrom_insertCell b (Nat.zero_le _) h.1, all_insertCell ?_ h.2⟩
    simp [hi, hb]

@[simp] theorem Memory.copyIn_fill (bytes : List Byte) : ∀ (m : Memory) (i : Nat), (m.copyIn i bytes).fill = m.fill := by
  induction bytes with
  | nil => intro m i; rfl
  | cons b rest ih => intro m i; simp [Memory.copyIn, ih]

/-- Copying bytes that fit keeps the canonical form. -/
theorem Memory.copyIn_wf {size : Nat} (bytes : List Byte) :
    ∀ {m : Memory} {i : Nat}, m.wf size = true → i + bytes.length ≤ size → (m.copyIn i bytes).wf size = true := by
  induction bytes with
  | nil => intro m i h _; exact h
  | cons b rest ih =>
    intro m i h hl
    simp only [List.length_cons] at hl
    exact ih (Memory.write_wf h (by omega) b) (by omega)

/-- An index outside the copied range keeps its byte. -/
theorem Memory.read_copyIn_outside (bytes : List Byte) :
    ∀ (m : Memory) (i : Nat) {j : Nat}, (j < i ∨ i + bytes.length ≤ j) → (m.copyIn i bytes).read j = m.read j := by
  induction bytes with
  | nil => intro m i j _; rfl
  | cons b rest ih =>
    intro m i j hj
    simp only [List.length_cons] at hj
    rw [Memory.copyIn, ih _ _ (by omega), Memory.read_write_ne _ _ (by omega)]

/-- Index `i + k` of the copied range holds byte `k`. -/
theorem Memory.read_copyIn_inside {size : Nat} (bytes : List Byte) :
    ∀ {m : Memory} {i : Nat}, m.wf size = true → i + bytes.length ≤ size →
      ∀ (k : Nat) (hk : k < bytes.length), (m.copyIn i bytes).read (i + k) = bytes[k] := by
  induction bytes with
  | nil => intro m i _ _ k hk; exact absurd hk (Nat.not_lt_zero _)
  | cons b rest ih =>
    intro m i h hl k hk
    simp only [List.length_cons] at hl hk
    cases k with
    | zero =>
      rw [Memory.copyIn, Memory.read_copyIn_outside _ _ _ (by omega)]
      exact Memory.read_write_same h _ _
    | succ k =>
      have := ih (m := m.write i b) (i := i + 1) (Memory.write_wf h (by omega) b) (by omega) k (by omega)
      simp only [List.getElem_cons_succ, Memory.copyIn]
      rw [← this]
      congr 1
      omega

/-- An array that lists nothing is in canonical form. -/
theorem Memory.wf_nil (size : Nat) (f : Fill) : Memory.wf size { fill := f, cells := [] } = true := rfl

@[simp] theorem Memory.read_zeroes (i : Nat) : Memory.zeroes.read i = 0 := rfl

/-- The reset state's arrays are in canonical form. -/
theorem reset_memories_wf :
    State.reset.rom.buffer.wf State.reset.cfg.romCapacity = true ∧ State.reset.workRam.wf 0x10000 = true ∧
      State.reset.secondaryRam.wf 0x2000 = true :=
  ⟨rfl, rfl, rfl⟩

end Sys2Proof.Machine
end

