-- ==== Sys2Proof/Laws/State.lean ====
section
/-! SUPPORT. One lemma per field and update of the state, each true by `rfl`; the lemmas of the joypad registers; and that
`SameStore` and `SameConfiguration` are preorders. -/

namespace Sys2Proof.Machine

@[simp] theorem State.raise_cfg (s : State) (d : Diag) : (s.raise d).cfg = s.cfg := rfl
@[simp] theorem State.raise_rom (s : State) (d : Diag) : (s.raise d).rom = s.rom := rfl
@[simp] theorem State.raise_workRam (s : State) (d : Diag) : (s.raise d).workRam = s.workRam := rfl
@[simp] theorem State.raise_secondaryRam (s : State) (d : Diag) : (s.raise d).secondaryRam = s.secondaryRam := rfl
@[simp] theorem State.raise_joypads (s : State) (d : Diag) : (s.raise d).joypads = s.joypads := rfl
@[simp] theorem State.raise_pal (s : State) (d : Diag) : (s.raise d).pal = s.pal := rfl
@[simp] theorem State.raise_japanese (s : State) (d : Diag) : (s.raise d).japanese = s.japanese := rfl
@[simp] theorem State.raise_vdp (s : State) (d : Diag) : (s.raise d).vdp = s.vdp := rfl
@[simp] theorem State.raise_diag (s : State) (d : Diag) : (s.raise d).diag = s.diag ++ [d] := rfl
@[simp] theorem State.raise_seq (s : State) (d : Diag) : (s.raise d).seq = s.seq := rfl
@[simp] theorem State.raise_initialised (s : State) (d : Diag) : (s.raise d).initialised = s.initialised := rfl
@[simp] theorem State.raise_pending (s : State) (d : Diag) : (s.raise d).pending = s.pending := rfl
@[simp] theorem State.raise_result (s : State) (d : Diag) : (s.raise d).result = s.result := rfl
@[simp] theorem State.raise_env (s : State) (d : Diag) : (s.raise d).env = s.env := rfl
@[simp] theorem State.raise_trace (s : State) (d : Diag) : (s.raise d).trace = s.trace := rfl

@[simp] theorem State.emit_cfg (s : State) (e : Event) : (s.emit e).cfg = s.cfg := rfl
@[simp] theorem State.emit_rom (s : State) (e : Event) : (s.emit e).rom = s.rom := rfl
@[simp] theorem State.emit_workRam (s : State) (e : Event) : (s.emit e).workRam = s.workRam := rfl
@[simp] theorem State.emit_secondaryRam (s : State) (e : Event) : (s.emit e).secondaryRam = s.secondaryRam := rfl
@[simp] theorem State.emit_joypads (s : State) (e : Event) : (s.emit e).joypads = s.joypads := rfl
@[simp] theorem State.emit_pal (s : State) (e : Event) : (s.emit e).pal = s.pal := rfl
@[simp] theorem State.emit_japanese (s : State) (e : Event) : (s.emit e).japanese = s.japanese := rfl
@[simp] theorem State.emit_vdp (s : State) (e : Event) : (s.emit e).vdp = s.vdp := rfl
@[simp] theorem State.emit_diag (s : State) (e : Event) : (s.emit e).diag = s.diag := rfl
@[simp] theorem State.emit_seq (s : State) (e : Event) : (s.emit e).seq = s.seq := rfl
@[simp] theorem State.emit_initialised (s : State) (e : Event) : (s.emit e).initialised = s.initialised := rfl
@[simp] theorem State.emit_pending (s : State) (e : Event) : (s.emit e).pending = s.pending := rfl
@[simp] theorem State.emit_result (s : State) (e : Event) : (s.emit e).result = s.result := rfl
@[simp] theorem State.emit_env (s : State) (e : Event) : (s.emit e).env = s.env := rfl
@[simp] theorem State.emit_trace (s : State) (e : Event) : (s.emit e).trace = s.trace ++ [e] := rfl

@[simp] theorem State.moveTo_cfg (s : State) (p : Option Position) : (s.moveTo p).cfg = s.cfg := rfl
@[simp] theorem State.moveTo_rom (s : State) (p : Option Position) : (s.moveTo p).rom = s.rom := rfl
@[simp] theorem State.moveTo_workRam (s : State) (p : Option Position) : (s.moveTo p).workRam = s.workRam := rfl
@[simp] theorem State.moveTo_secondaryRam (s : State) (p : Option Position) : (s.moveTo p).secondaryRam = s.secondaryRam := rfl
@[simp] theorem State.moveTo_joypads (s : State) (p : Option Position) : (s.moveTo p).joypads = s.joypads := rfl
@[simp] theorem State.moveTo_pal (s : State) (p : Option Position) : (s.moveTo p).pal = s.pal := rfl
@[simp] theorem State.moveTo_japanese (s : State) (p : Option Position) : (s.moveTo p).japanese = s.japanese := rfl
@[simp] theorem State.moveTo_vdp (s : State) (p : Option Position) : (s.moveTo p).vdp = s.vdp := rfl
@[simp] theorem State.moveTo_diag (s : State) (p : Option Position) : (s.moveTo p).diag = s.diag := rfl
@[simp] theorem State.moveTo_seq (s : State) (p : Option Position) : (s.moveTo p).seq = p := rfl
@[simp] theorem State.moveTo_initialised (s : State) (p : Option Position) : (s.moveTo p).initialised = s.initialised := rfl
@[simp] theorem State.moveTo_pending (s : State) (p : Option Position) : (s.moveTo p).pending = s.pending := rfl
@[simp] theorem State.moveTo_result (s : State) (p : Option Position) : (s.moveTo p).result = s.result := rfl
@[simp] theorem State.moveTo_env (s : State) (p : Option Position) : (s.moveTo p).env = s.env := rfl
@[simp] theorem State.moveTo_trace (s : State) (p : Option Position) : (s.moveTo p).trace = s.trace := rfl

@[simp] theorem State.answer_cfg (s : State) (r : Result) : (s.answer r).cfg = s.cfg := rfl
@[simp] theorem State.answer_rom (s : State) (r : Result) : (s.answer r).rom = s.rom := rfl
@[simp] theorem State.answer_workRam (s : State) (r : Result) : (s.answer r).workRam = s.workRam := rfl
@[simp] theorem State.answer_secondaryRam (s : State) (r : Result) : (s.answer r).secondaryRam = s.secondaryRam := rfl
@[simp] theorem State.answer_joypads (s : State) (r : Result) : (s.answer r).joypads = s.joypads := rfl
@[simp] theorem State.answer_pal (s : State) (r : Result) : (s.answer r).pal = s.pal := rfl
@[simp] theorem State.answer_japanese (s : State) (r : Result) : (s.answer r).japanese = s.japanese := rfl
@[simp] theorem State.answer_vdp (s : State) (r : Result) : (s.answer r).vdp = s.vdp := rfl
@[simp] theorem State.answer_diag (s : State) (r : Result) : (s.answer r).diag = s.diag := rfl
@[simp] theorem State.answer_seq (s : State) (r : Result) : (s.answer r).seq = s.seq := rfl
@[simp] theorem State.answer_initialised (s : State) (r : Result) : (s.answer r).initialised = s.initialised := rfl
@[simp] theorem State.answer_pending (s : State) (r : Result) : (s.answer r).pending = s.pending := rfl
@[simp] theorem State.answer_result (s : State) (r : Result) : (s.answer r).result = r := rfl
@[simp] theorem State.answer_env (s : State) (r : Result) : (s.answer r).env = s.env := rfl
@[simp] theorem State.answer_trace (s : State) (r : Result) : (s.answer r).trace = s.trace := rfl

@[simp] theorem State.setEnv_cfg (s : State) (e : Env) : (s.setEnv e).cfg = s.cfg := rfl
@[simp] theorem State.setEnv_rom (s : State) (e : Env) : (s.setEnv e).rom = s.rom := rfl
@[simp] theorem State.setEnv_workRam (s : State) (e : Env) : (s.setEnv e).workRam = s.workRam := rfl
@[simp] theorem State.setEnv_secondaryRam (s : State) (e : Env) : (s.setEnv e).secondaryRam = s.secondaryRam := rfl
@[simp] theorem State.setEnv_joypads (s : State) (e : Env) : (s.setEnv e).joypads = s.joypads := rfl
@[simp] theorem State.setEnv_pal (s : State) (e : Env) : (s.setEnv e).pal = s.pal := rfl
@[simp] theorem State.setEnv_japanese (s : State) (e : Env) : (s.setEnv e).japanese = s.japanese := rfl
@[simp] theorem State.setEnv_vdp (s : State) (e : Env) : (s.setEnv e).vdp = s.vdp := rfl
@[simp] theorem State.setEnv_diag (s : State) (e : Env) : (s.setEnv e).diag = s.diag := rfl
@[simp] theorem State.setEnv_seq (s : State) (e : Env) : (s.setEnv e).seq = s.seq := rfl
@[simp] theorem State.setEnv_initialised (s : State) (e : Env) : (s.setEnv e).initialised = s.initialised := rfl
@[simp] theorem State.setEnv_pending (s : State) (e : Env) : (s.setEnv e).pending = s.pending := rfl
@[simp] theorem State.setEnv_result (s : State) (e : Env) : (s.setEnv e).result = s.result := rfl
@[simp] theorem State.setEnv_env (s : State) (e : Env) : (s.setEnv e).env = e := rfl
@[simp] theorem State.setEnv_trace (s : State) (e : Env) : (s.setEnv e).trace = s.trace := rfl

@[simp] theorem State.setVdp_cfg (s : State) (v : Vdp) : (s.setVdp v).cfg = s.cfg := rfl
@[simp] theorem State.setVdp_rom (s : State) (v : Vdp) : (s.setVdp v).rom = s.rom := rfl
@[simp] theorem State.setVdp_workRam (s : State) (v : Vdp) : (s.setVdp v).workRam = s.workRam := rfl
@[simp] theorem State.setVdp_secondaryRam (s : State) (v : Vdp) : (s.setVdp v).secondaryRam = s.secondaryRam := rfl
@[simp] theorem State.setVdp_joypads (s : State) (v : Vdp) : (s.setVdp v).joypads = s.joypads := rfl
@[simp] theorem State.setVdp_pal (s : State) (v : Vdp) : (s.setVdp v).pal = s.pal := rfl
@[simp] theorem State.setVdp_japanese (s : State) (v : Vdp) : (s.setVdp v).japanese = s.japanese := rfl
@[simp] theorem State.setVdp_vdp (s : State) (v : Vdp) : (s.setVdp v).vdp = v := rfl
@[simp] theorem State.setVdp_diag (s : State) (v : Vdp) : (s.setVdp v).diag = s.diag := rfl
@[simp] theorem State.setVdp_seq (s : State) (v : Vdp) : (s.setVdp v).seq = s.seq := rfl
@[simp] theorem State.setVdp_initialised (s : State) (v : Vdp) : (s.setVdp v).initialised = s.initialised := rfl
@[simp] theorem State.setVdp_pending (s : State) (v : Vdp) : (s.setVdp v).pending = s.pending := rfl
@[simp] theorem State.setVdp_result (s : State) (v : Vdp) : (s.setVdp v).result = s.result := rfl
@[simp] theorem State.setVdp_env (s : State) (v : Vdp) : (s.setVdp v).env = s.env := rfl
@[simp] theorem State.setVdp_trace (s : State) (v : Vdp) : (s.setVdp v).trace = s.trace := rfl

@[simp] theorem State.writeWork_cfg (s : State) (i : Nat) (b : Byte) : (s.writeWork i b).cfg = s.cfg := rfl
@[simp] theorem State.writeWork_rom (s : State) (i : Nat) (b : Byte) : (s.writeWork i b).rom = s.rom := rfl
@[simp] theorem State.writeWork_workRam (s : State) (i : Nat) (b : Byte) : (s.writeWork i b).workRam = s.workRam.write i b := rfl
@[simp] theorem State.writeWork_secondaryRam (s : State) (i : Nat) (b : Byte) : (s.writeWork i b).secondaryRam = s.secondaryRam := rfl
@[simp] theorem State.writeWork_joypads (s : State) (i : Nat) (b : Byte) : (s.writeWork i b).joypads = s.joypads := rfl
@[simp] theorem State.writeWork_pal (s : State) (i : Nat) (b : Byte) : (s.writeWork i b).pal = s.pal := rfl
@[simp] theorem State.writeWork_japanese (s : State) (i : Nat) (b : Byte) : (s.writeWork i b).japanese = s.japanese := rfl
@[simp] theorem State.writeWork_vdp (s : State) (i : Nat) (b : Byte) : (s.writeWork i b).vdp = s.vdp := rfl
@[simp] theorem State.writeWork_diag (s : State) (i : Nat) (b : Byte) : (s.writeWork i b).diag = s.diag := rfl
@[simp] theorem State.writeWork_seq (s : State) (i : Nat) (b : Byte) : (s.writeWork i b).seq = s.seq := rfl
@[simp] theorem State.writeWork_initialised (s : State) (i : Nat) (b : Byte) : (s.writeWork i b).initialised = s.initialised := rfl
@[simp] theorem State.writeWork_pending (s : State) (i : Nat) (b : Byte) : (s.writeWork i b).pending = s.pending := rfl
@[simp] theorem State.writeWork_result (s : State) (i : Nat) (b : Byte) : (s.writeWork i b).result = s.result := rfl
@[simp] theorem State.writeWork_env (s : State) (i : Nat) (b : Byte) : (s.writeWork i b).env = s.env := rfl
@[simp] theorem State.writeWork_trace (s : State) (i : Nat) (b : Byte) : (s.writeWork i b).trace = s.trace := rfl

@[simp] theorem State.writeSecondary_cfg (s : State) (i : Nat) (b : Byte) : (s.writeSecondary i b).cfg = s.cfg := rfl
@[simp] theorem State.writeSecondary_rom (s : State) (i : Nat) (b : Byte) : (s.writeSecondary i b).rom = s.rom := rfl
@[simp] theorem State.writeSecondary_workRam (s : State) (i : Nat) (b : Byte) : (s.writeSecondary i b).workRam = s.workRam := rfl
@[simp] theorem State.writeSecondary_secondaryRam (s : State) (i : Nat) (b : Byte) : (s.writeSecondary i b).secondaryRam = s.secondaryRam.write i b := rfl
@[simp] theorem State.writeSecondary_joypads (s : State) (i : Nat) (b : Byte) : (s.writeSecondary i b).joypads = s.joypads := rfl
@[simp] theorem State.writeSecondary_pal (s : State) (i : Nat) (b : Byte) : (s.writeSecondary i b).pal = s.pal := rfl
@[simp] theorem State.writeSecondary_japanese (s : State) (i : Nat) (b : Byte) : (s.writeSecondary i b).japanese = s.japanese := rfl
@[simp] theorem State.writeSecondary_vdp (s : State) (i : Nat) (b : Byte) : (s.writeSecondary i b).vdp = s.vdp := rfl
@[simp] theorem State.writeSecondary_diag (s : State) (i : Nat) (b : Byte) : (s.writeSecondary i b).diag = s.diag := rfl
@[simp] theorem State.writeSecondary_seq (s : State) (i : Nat) (b : Byte) : (s.writeSecondary i b).seq = s.seq := rfl
@[simp] theorem State.writeSecondary_initialised (s : State) (i : Nat) (b : Byte) : (s.writeSecondary i b).initialised = s.initialised := rfl
@[simp] theorem State.writeSecondary_pending (s : State) (i : Nat) (b : Byte) : (s.writeSecondary i b).pending = s.pending := rfl
@[simp] theorem State.writeSecondary_result (s : State) (i : Nat) (b : Byte) : (s.writeSecondary i b).result = s.result := rfl
@[simp] theorem State.writeSecondary_env (s : State) (i : Nat) (b : Byte) : (s.writeSecondary i b).env = s.env := rfl
@[simp] theorem State.writeSecondary_trace (s : State) (i : Nat) (b : Byte) : (s.writeSecondary i b).trace = s.trace := rfl

@[simp] theorem State.setPort_cfg (s : State) (n : Port) (p : JoyPort) : (s.setPort n p).cfg = s.cfg := rfl
@[simp] theorem State.setPort_rom (s : State) (n : Port) (p : JoyPort) : (s.setPort n p).rom = s.rom := rfl
@[simp] theorem State.setPort_workRam (s : State) (n : Port) (p : JoyPort) : (s.setPort n p).workRam = s.workRam := rfl
@[simp] theorem State.setPort_secondaryRam (s : State) (n : Port) (p : JoyPort) : (s.setPort n p).secondaryRam = s.secondaryRam := rfl
@[simp] theorem State.setPort_joypads (s : State) (n : Port) (p : JoyPort) : (s.setPort n p).joypads = s.joypads.set n p := rfl
@[simp] theorem State.setPort_pal (s : State) (n : Port) (p : JoyPort) : (s.setPort n p).pal = s.pal := rfl
@[simp] theorem State.setPort_japanese (s : State) (n : Port) (p : JoyPort) : (s.setPort n p).japanese = s.japanese := rfl
@[simp] theorem State.setPort_vdp (s : State) (n : Port) (p : JoyPort) : (s.setPort n p).vdp = s.vdp := rfl
@[simp] theorem State.setPort_diag (s : State) (n : Port) (p : JoyPort) : (s.setPort n p).diag = s.diag := rfl
@[simp] theorem State.setPort_seq (s : State) (n : Port) (p : JoyPort) : (s.setPort n p).seq = s.seq := rfl
@[simp] theorem State.setPort_initialised (s : State) (n : Port) (p : JoyPort) : (s.setPort n p).initialised = s.initialised := rfl
@[simp] theorem State.setPort_pending (s : State) (n : Port) (p : JoyPort) : (s.setPort n p).pending = s.pending := rfl
@[simp] theorem State.setPort_result (s : State) (n : Port) (p : JoyPort) : (s.setPort n p).result = s.result := rfl
@[simp] theorem State.setPort_env (s : State) (n : Port) (p : JoyPort) : (s.setPort n p).env = s.env := rfl
@[simp] theorem State.setPort_trace (s : State) (n : Port) (p : JoyPort) : (s.setPort n p).trace = s.trace := rfl

@[simp] theorem State.setRom_cfg (s : State) (r : Rom) : (s.setRom r).cfg = s.cfg := rfl
@[simp] theorem State.setRom_rom (s : State) (r : Rom) : (s.setRom r).rom = r := rfl
@[simp] theorem State.setRom_workRam (s : State) (r : Rom) : (s.setRom r).workRam = s.workRam := rfl
@[simp] theorem State.setRom_secondaryRam (s : State) (r : Rom) : (s.setRom r).secondaryRam = s.secondaryRam := rfl
@[simp] theorem State.setRom_joypads (s : State) (r : Rom) : (s.setRom r).joypads = s.joypads := rfl
@[simp] theorem State.setRom_pal (s : State) (r : Rom) : (s.setRom r).pal = s.pal := rfl
@[simp] theorem State.setRom_japanese (s : State) (r : Rom) : (s.setRom r).japanese = s.japanese := rfl
@[simp] theorem State.setRom_vdp (s : State) (r : Rom) : (s.setRom r).vdp = s.vdp := rfl
@[simp] theorem State.setRom_diag (s : State) (r : Rom) : (s.setRom r).diag = s.diag := rfl
@[simp] theorem State.setRom_seq (s : State) (r : Rom) : (s.setRom r).seq = s.seq := rfl
@[simp] theorem State.setRom_initialised (s : State) (r : Rom) : (s.setRom r).initialised = s.initialised := rfl
@[simp] theorem State.setRom_pending (s : State) (r : Rom) : (s.setRom r).pending = s.pending := rfl
@[simp] theorem State.setRom_result (s : State) (r : Rom) : (s.setRom r).result = s.result := rfl
@[simp] theorem State.setRom_env (s : State) (r : Rom) : (s.setRom r).env = s.env := rfl
@[simp] theorem State.setRom_trace (s : State) (r : Rom) : (s.setRom r).trace = s.trace := rfl

@[simp] theorem State.drew_cfg (s : State) : s.drew.cfg = s.cfg := rfl
@[simp] theorem State.drew_rom (s : State) : s.drew.rom = s.rom := rfl
@[simp] theorem State.drew_workRam (s : State) : s.drew.workRam = s.workRam := rfl
@[simp] theorem State.drew_secondaryRam (s : State) : s.drew.secondaryRam = s.secondaryRam := rfl
@[simp] theorem State.drew_joypads (s : State) : s.drew.joypads = s.joypads := rfl
@[simp] theorem State.drew_pal (s : State) : s.drew.pal = s.pal := rfl
@[simp] theorem State.drew_japanese (s : State) : s.drew.japanese = s.japanese := rfl
@[simp] theorem State.drew_vdp (s : State) : s.drew.vdp = s.vdp := rfl
@[simp] theorem State.drew_diag (s : State) : s.drew.diag = s.diag := rfl
@[simp] theorem State.drew_seq (s : State) : s.drew.seq = s.seq := rfl
@[simp] theorem State.drew_initialised (s : State) : s.drew.initialised = s.initialised := rfl
@[simp] theorem State.drew_pending (s : State) : s.drew.pending = s.pending := rfl
@[simp] theorem State.drew_result (s : State) : s.drew.result = s.result := rfl
@[simp] theorem State.drew_env (s : State) : s.drew.env = { s.env with drawn := s.env.drawn + 1 } := rfl
@[simp] theorem State.drew_trace (s : State) : s.drew.trace = s.trace := rfl

@[simp] theorem Joypads.get_set_same (j : Joypads) (n : Port) (p : JoyPort) : (j.set n p).get n = p := by
  cases n <;> rfl

theorem Joypads.get_set_ne (j : Joypads) {m n : Port} (p : JoyPort) (h : m ≠ n) : (j.set n p).get m = j.get m := by
  cases m <;> cases n <;> first | exact absurd rfl h | rfl

theorem Joypads.ext_get {j k : Joypads} (h : ∀ n, j.get n = k.get n) : j = k := by
  have h0 := h .p0
  have h1 := h .p1
  have h2 := h .p2
  cases j
  cases k
  simp_all [Joypads.get]

theorem SameStore.refl (s : State) : SameStore s s := ⟨rfl, rfl, rfl, rfl, rfl, rfl, rfl, rfl, rfl, rfl⟩

theorem SameStore.trans {s t u : State} (h : SameStore s t) (k : SameStore t u) : SameStore s u :=
  ⟨k.cfg.trans h.cfg, k.rom.trans h.rom, k.workRam.trans h.workRam, k.secondaryRam.trans h.secondaryRam,
    k.joypads.trans h.joypads, k.pal.trans h.pal, k.japanese.trans h.japanese, k.seq.trans h.seq,
    k.initialised.trans h.initialised, k.pending.trans h.pending⟩

theorem SameConfiguration.refl (s : State) : SameConfiguration s s := ⟨rfl, rfl, rfl, rfl, rfl, rfl⟩

theorem SameConfiguration.trans {s t u : State} (h : SameConfiguration s t) (k : SameConfiguration t u) :
    SameConfiguration s u :=
  ⟨k.cfg.trans h.cfg, k.rom.trans h.rom, k.pal.trans h.pal, k.japanese.trans h.japanese,
    k.initialised.trans h.initialised, k.pending.trans h.pending⟩

/-- What leaves the whole store alone leaves the configuration alone. -/
theorem SameStore.configuration {s t : State} (h : SameStore s t) : SameConfiguration s t :=
  ⟨h.cfg, h.rom, h.pal, h.japanese, h.initialised, h.pending⟩

end Sys2Proof.Machine
end

