-- ==== Sys2Proof/Laws/Outside.lean ====
section
/-! SUPPORT. What the draws and the calls to the outside agents can change: none of the store. One lemma per shared
operation; later proofs cite these and do not unfold the operations. -/

namespace Sys2Proof.Machine

theorem sameStore_emit (s : State) (e : Event) : SameStore s (s.emit e) := ⟨rfl, rfl, rfl, rfl, rfl, rfl, rfl, rfl, rfl, rfl⟩

theorem sameStore_raise (s : State) (d : Diag) : SameStore s (s.raise d) :=
  ⟨rfl, rfl, rfl, rfl, rfl, rfl, rfl, rfl, rfl, rfl⟩

theorem sameStore_answer (s : State) (r : Result) : SameStore s (s.answer r) :=
  ⟨rfl, rfl, rfl, rfl, rfl, rfl, rfl, rfl, rfl, rfl⟩

theorem sameStore_setEnv (s : State) (e : Env) : SameStore s (s.setEnv e) :=
  ⟨rfl, rfl, rfl, rfl, rfl, rfl, rfl, rfl, rfl, rfl⟩

theorem sameStore_drew (s : State) : SameStore s s.drew := sameStore_setEnv s _

theorem sameStore_touchVdp (s : State) : SameStore s (touchVdp s) := ⟨rfl, rfl, rfl, rfl, rfl, rfl, rfl, rfl, rfl, rfl⟩

/-! ### Draws: an answer, and a change of `env` alone -/

theorem drawByte_spec (s : State) : ∃ b e, drawByte s = (b, s.setEnv e) := ⟨_, _, rfl⟩

theorem drawQuery_spec (s : State) : ∃ q e, drawQuery s = (q, s.setEnv e) := by
  unfold drawQuery
  split <;> exact ⟨_, _, rfl⟩

theorem drawVdpWord_spec (s : State) : ∃ w e, drawVdpWord s = (w, s.setEnv e) := by
  unfold drawVdpWord
  split <;> exact ⟨_, _, rfl⟩

theorem drawVdpFlag_spec (s : State) : ∃ f e, drawVdpFlag s = (f, s.setEnv e) := by
  unfold drawVdpFlag
  split <;> exact ⟨_, _, rfl⟩

theorem drawCpuWork_spec (s : State) : ∃ w e, drawCpuWork s = (w, s.setEnv e) := by
  unfold drawCpuWork
  split <;> exact ⟨_, _, rfl⟩

/-- The peeks drawn are the script's next, or free where no script is left; the script moves on by one. -/
theorem drawPeekWork_spec (s : State) :
    ∃ w e, drawPeekWork s = (w, s.setEnv e) ∧ (∀ work rest, s.env.peekWork = work :: rest → w = work) ∧
      (s.env.peekWork = [] → w = Config.freePeekWork s.env.drawn) ∧ e.peekWork = s.env.peekWork.tail := by
  unfold drawPeekWork
  split
  · next w rest h =>
    exact ⟨w, _, rfl, fun _ _ h' => (List.cons.inj (h.symm.trans h')).1, by simp [h], by simp [h]⟩
  · next h => exact ⟨_, _, rfl, by simp [h], fun _ => rfl, by simp [h]⟩

theorem drawImage_spec (s : State) : ∃ i e, drawImage s = (i, s.setEnv e) := by
  unfold drawImage
  split <;> exact ⟨_, _, rfl⟩

/-! ### Facade calls: one event, and changes of `env` and `vdp` alone -/

theorem vdpInit_spec (s : State) : ∃ e v, vdpInit s = ((s.emit .vdpInit).setVdp v).setEnv e := ⟨_, _, rfl⟩

theorem vdpReadData_spec (s : State) :
    ∃ w e v, vdpReadData s = (w, ((s.emit (.vdpReadData w)).setVdp v).setEnv e) := by
  obtain ⟨w, e, h⟩ := drawVdpWord_spec s
  exact ⟨w, _, _, by simp only [vdpReadData, h]; rfl⟩

theorem vdpReadCtrl_spec (s : State) :
    ∃ w e v, vdpReadCtrl s = (w, ((s.emit (.vdpReadCtrl w)).setVdp v).setEnv e) := by
  obtain ⟨w, e, h⟩ := drawVdpWord_spec s
  exact ⟨w, _, _, by simp only [vdpReadCtrl, h]; rfl⟩

theorem vdpWriteData_spec (w : Word) (lanes : Lanes) (s : State) :
    ∃ e v, vdpWriteData w lanes s = ((s.emit (.vdpWriteData w lanes)).setVdp v).setEnv e := ⟨_, _, rfl⟩

theorem vdpHintEnabled_spec (s : State) :
    ∃ f e v, vdpHintEnabled s = (f, ((s.emit (.vdpHintEnabled f)).setVdp v).setEnv e) := by
  obtain ⟨f, e, h⟩ := drawVdpFlag_spec s
  exact ⟨f, _, _, by simp only [vdpHintEnabled, h]; rfl⟩

theorem vdpVintEnabled_spec (s : State) :
    ∃ f e v, vdpVintEnabled s = (f, ((s.emit (.vdpVintEnabled f)).setVdp v).setEnv e) := by
  obtain ⟨f, e, h⟩ := drawVdpFlag_spec s
  exact ⟨f, _, _, by simp only [vdpVintEnabled, h]; rfl⟩

theorem vdpRender_spec (l : Nat) (cb : Handle) (s : State) :
    ∃ i e v, vdpRender l cb s = (((s.emit (.vdpRender l cb)).emit (.scanline cb l i)).setVdp v).setEnv e := by
  obtain ⟨i, e, h⟩ := drawImage_spec (s.emit (.vdpRender l cb))
  exact ⟨i, _, _, by simp only [vdpRender, h]; rfl⟩

theorem query_spec (cb : Option Handle) (button : Button) (s : State) :
    ∃ q e, query cb button s = (q, (s.emit (.query cb button (s.cfg.buttonIds.token button) q)).setEnv e) := by
  obtain ⟨q, e, h⟩ := drawQuery_spec s
  exact ⟨q, e, by simp only [query, h]; rfl⟩

/-- Scripted: the oracle's next answer is the script's. -/
theorem query_scripted (cb : Option Handle) (button : Button) (s : State) {q : Bool} {rest : List Bool}
    (h : s.env.queries = q :: rest) :
    query cb button s =
      (q, (s.emit (.query cb button (s.cfg.buttonIds.token button) q)).setEnv { s.env with queries := rest }) := by
  simp only [query, drawQuery, h]
  rfl

theorem sameStore_query (cb : Option Handle) (button : Button) (s : State) : SameStore s (query cb button s).2 := by
  obtain ⟨q, e, h⟩ := query_spec cb button s
  rw [h]
  exact (sameStore_emit s _).trans (sameStore_setEnv _ e)

theorem sameStore_vdpReadData (s : State) : SameStore s (vdpReadData s).2 := by
  obtain ⟨w, e, v, h⟩ := vdpReadData_spec s
  rw [h]
  exact ⟨rfl, rfl, rfl, rfl, rfl, rfl, rfl, rfl, rfl, rfl⟩

theorem sameStore_vdpReadCtrl (s : State) : SameStore s (vdpReadCtrl s).2 := by
  obtain ⟨w, e, v, h⟩ := vdpReadCtrl_spec s
  rw [h]
  exact ⟨rfl, rfl, rfl, rfl, rfl, rfl, rfl, rfl, rfl, rfl⟩

theorem sameStore_vdpWriteData (w : Word) (lanes : Lanes) (s : State) : SameStore s (vdpWriteData w lanes s) :=
  ⟨rfl, rfl, rfl, rfl, rfl, rfl, rfl, rfl, rfl, rfl⟩

theorem sameStore_vdpHintEnabled (s : State) : SameStore s (vdpHintEnabled s).2 := by
  obtain ⟨f, e, v, h⟩ := vdpHintEnabled_spec s
  rw [h]
  exact ⟨rfl, rfl, rfl, rfl, rfl, rfl, rfl, rfl, rfl, rfl⟩

theorem sameStore_vdpVintEnabled (s : State) : SameStore s (vdpVintEnabled s).2 := by
  obtain ⟨f, e, v, h⟩ := vdpVintEnabled_spec s
  rw [h]
  exact ⟨rfl, rfl, rfl, rfl, rfl, rfl, rfl, rfl, rfl, rfl⟩

theorem sameStore_vdpRender (l : Nat) (cb : Handle) (s : State) : SameStore s (vdpRender l cb s) := by
  obtain ⟨i, e, v, h⟩ := vdpRender_spec l cb s
  rw [h]
  exact ⟨rfl, rfl, rfl, rfl, rfl, rfl, rfl, rfl, rfl, rfl⟩

/-! ### The joypad read and the ROM and peek reads -/

theorem sameStore_buttonTerm (cb : Option Handle) (g : List (Button × Nat)) :
    ∀ s : State, SameStore s (buttonTerm cb g s).2 := by
  induction g with
  | nil => exact SameStore.refl
  | cons x rest ih => exact fun s => (sameStore_query cb x.1 s).trans (ih _)

/-- No diagnostic is raised and no facade called while buttons are queried. -/
theorem buttonTerm_keeps (cb : Option Handle) (g : List (Button × Nat)) :
    ∀ s : State, (buttonTerm cb g s).2.diag = s.diag ∧ (buttonTerm cb g s).2.vdp = s.vdp ∧
      (buttonTerm cb g s).2.result = s.result := by
  induction g with
  | nil => exact fun s => ⟨rfl, rfl, rfl⟩
  | cons x rest ih =>
    intro s
    obtain ⟨q, e, h⟩ := query_spec cb x.1 s
    simp only [buttonTerm, h]
    obtain ⟨h1, h2, h3⟩ := ih ((s.emit (.query cb x.1 (s.cfg.buttonIds.token x.1) q)).setEnv e)
    exact ⟨h1, h2, h3⟩

/-- The record of a group's queries: one each, in the group's order, under the callback the read was given. -/
theorem buttonTerm_trace (cb : Option Handle) (g : List (Button × Nat)) :
    ∀ s : State, ∃ tr, (buttonTerm cb g s).2.trace = s.trace ++ tr ∧
      List.Forall₂ (fun x ev => ∃ q, ev = .query cb x.1 (s.cfg.buttonIds.token x.1) q) g tr := by
  induction g with
  | nil => exact fun s => ⟨[], by simp [buttonTerm], .nil⟩
  | cons x rest ih =>
    intro s
    obtain ⟨q, e, h⟩ := query_spec cb x.1 s
    obtain ⟨tr, h1, h2⟩ := ih ((s.emit (.query cb x.1 (s.cfg.buttonIds.token x.1) q)).setEnv e)
    exact ⟨.query cb x.1 (s.cfg.buttonIds.token x.1) q :: tr, by simp [buttonTerm, h, h1], .cons ⟨q, rfl⟩ h2⟩

theorem sameStore_joyRead0 (cb : Option Handle) (s : State) : SameStore s (joyRead0 cb s).2 :=
  sameStore_buttonTerm cb _ s

theorem romLowByte_spec (a : Addr) (s : State) : ∃ b e, romLowByte a s = (b, s.setEnv e) := by
  unfold romLowByte
  split
  · exact ⟨_, s.env, rfl⟩
  · exact drawByte_spec s

/-- A ROM read answers a word and changes `env` at most. -/
theorem romWord_spec (lanes : Lanes) (a : Addr) (s : State) :
    ∃ b e, romWord lanes a s = (laneWord lanes (s.rom.buffer.read (romHigh a)) b, s.setEnv e) := by
  unfold romWord
  split
  · obtain ⟨b, e, h⟩ := romLowByte_spec a s
    exact ⟨b, e, by simp only [h]⟩
  · exact ⟨0, s.env, rfl⟩

theorem sameStore_romWord (lanes : Lanes) (a : Addr) (s : State) : SameStore s (romWord lanes a s).2 := by
  obtain ⟨b, e, h⟩ := romWord_spec lanes a s
  rw [h]
  exact sameStore_setEnv s e

theorem sameStore_peekRow (a : Addr) (s : State) (r : PeekRow) : SameStore s (peekRow a s r).2 := by
  cases r
  · exact sameStore_romWord .both a s
  · exact SameStore.refl s
  · exact sameStore_raise s _

theorem sameStore_peek (a : Addr) (s : State) : SameStore s (peek a s).2 := sameStore_peekRow a s _

theorem sameStore_runPeeks (as : List Addr) : ∀ s : State, SameStore s (runPeeks as s) := by
  induction as with
  | nil => exact SameStore.refl
  | cons a rest ih => exact fun s => ((sameStore_peek a s).trans (sameStore_emit _ _)).trans (ih _)

theorem peekRow_trace (a : Addr) (s : State) (r : PeekRow) :
    (peekRow a s r).2.trace = s.trace ∧ (peekRow a s r).2.env.peekWork = s.env.peekWork := by
  cases r with
  | rom =>
    simp only [peekRow, peekRom, romWord, romLowByte]
    split
    · split <;> exact ⟨rfl, rfl⟩
    · exact ⟨rfl, rfl⟩
  | wram => exact ⟨rfl, rfl⟩
  | invalid => exact ⟨rfl, rfl⟩

/-- Every peek issued is served, once each, in the order issued, and no other; none takes from the script. -/
theorem runPeeks_trace (as : List Addr) : ∀ s : State,
    ∃ ps : List (Addr × Word), ps.map Prod.fst = as ∧
      (runPeeks as s).trace = s.trace ++ ps.map (fun p => .peeked p.1 p.2) ∧
      (runPeeks as s).env.peekWork = s.env.peekWork := by
  induction as with
  | nil => exact fun s => ⟨[], rfl, by simp [runPeeks], rfl⟩
  | cons a rest ih =>
    intro s
    obtain ⟨ht, hw⟩ := peekRow_trace a s (selectPeek s.rom.size (descriptor true false .both a))
    obtain ⟨ps, h1, h2, h3⟩ := ih ((peek a s).2.emit (.peeked a (peek a s).1))
    refine ⟨(a, (peek a s).1) :: ps, by rw [List.map_cons, h1], h2.trans ?_, h3.trans hw⟩
    have hp : (peek a s).2.trace = s.trace := ht
    simp [State.emit, hp]

theorem sameStore_vdpWriteCtrl (v : Word) (lanes : Lanes) (s : State) : SameStore s (vdpWriteCtrl v lanes s) := by
  obtain ⟨w, e, h, -⟩ := drawPeekWork_spec (s.emit (.vdpWriteCtrl v lanes))
  simp only [vdpWriteCtrl, h]
  exact (((sameStore_emit s _).trans (sameStore_setEnv _ e)).trans (sameStore_runPeeks w _)).trans
    (sameStore_touchVdp _)

/-! ### A primary-bus read -/

theorem sameStore_readRow (cb : Option Handle) (lanes : Lanes) (a : Addr) (s : State) (r : ReadRow) :
    SameStore s (readRow cb lanes a s r).2 := by
  cases r with
  | rom => exact sameStore_romWord lanes a s
  | sramW => exact sameStore_raise s _
  | sramB =>
    simp only [readRow, rdSramB]
    split <;> exact SameStore.refl s
  | joy0Data =>
    simp only [readRow, rdJoy0Data]
    split
    · exact sameStore_joyRead0 cb s
    · exact SameStore.refl s
  | joyCtrl n =>
    simp only [readRow, rdJoyCtrl]
    split <;> exact SameStore.refl s
  | vdpData => exact sameStore_vdpReadData s
  | vdpCtrl => exact sameStore_vdpReadCtrl s
  | invalid => exact sameStore_raise s _
  | sound | joy12Data | memmode | busreq | z80rst | hv | psg | wram => exact SameStore.refl s

/-- A primary-bus read changes no storage, register, flag or parameter. -/
theorem sameStore_busRead (cb : Option Handle) (lanes : Lanes) (a : Addr) (s : State) :
    SameStore s (busRead cb lanes a s).2 := sameStore_readRow cb lanes a s _

end Sys2Proof.Machine
end

