-- ==== Sys2Proof/Laws/Frame.lean ====
section
/-! SUPPORT. What a primary-bus write, a CPU call and the parts of a frame can do: one inversion lemma for the write rows,
and that the configuration is left alone throughout. -/

namespace Sys2Proof.Machine

/-- The six things a write row can do: nothing; one diagnostic; stores to work RAM inside its size; one store to
secondary RAM inside its size; one joypad register; one facade call. -/
theorem writeRow_cases (lanes : Lanes) (a : Addr) (v : Word) (s : State) (r : WriteRow) :
    writeRow lanes a v s r = s ∨
    (∃ d, writeRow lanes a v s r = s.raise d) ∨
    (∃ i b, i < 0x10000 ∧ writeRow lanes a v s r = s.writeWork i b) ∨
    (∃ i b j c, i < 0x10000 ∧ j < 0x10000 ∧ writeRow lanes a v s r = (s.writeWork i b).writeWork j c) ∨
    (∃ i b, i < 0x2000 ∧ writeRow lanes a v s r = s.writeSecondary i b) ∨
    (∃ n p, writeRow lanes a v s r = s.setPort n p) ∨
    writeRow lanes a v s r = vdpWriteData v lanes s ∨
    writeRow lanes a v s r = vdpWriteCtrl v lanes s := by
  cases r with
  | sound | memmode | busreq | z80rst | hv | psg => exact .inl rfl
  | rom | sramW | invalid => exact .inr (.inl ⟨_, rfl⟩)
  | sramB =>
    refine .inr (.inr (.inr (.inr (.inl ?_))))
    simp only [writeRow, wrSramB]
    split
    · exact ⟨_, _, Nat.mod_lt _ (by decide), rfl⟩
    · exact ⟨_, _, Nat.mod_lt _ (by decide), rfl⟩
  | joyData n =>
    simp only [writeRow, wrJoyData]
    split
    · exact .inr (.inr (.inr (.inr (.inr (.inl ⟨_, _, rfl⟩)))))
    · exact .inl rfl
  | joyCtrl n =>
    simp only [writeRow, wrJoyCtrl]
    split
    · exact .inr (.inr (.inr (.inr (.inr (.inl ⟨_, _, rfl⟩)))))
    · exact .inl rfl
  | vdpData => exact .inr (.inr (.inr (.inr (.inr (.inr (.inl rfl))))))
  | vdpCtrl => exact .inr (.inr (.inr (.inr (.inr (.inr (.inr rfl))))))
  | wram =>
    have hh : workHigh a < 0x10000 := Nat.mod_lt _ (by decide)
    have hl : workLow a < 0x10000 := Nat.mod_lt _ (by decide)
    cases lanes with
    | high => exact .inr (.inr (.inl ⟨_, _, hh, rfl⟩))
    | low => exact .inr (.inr (.inl ⟨_, _, hl, rfl⟩))
    | both => exact .inr (.inr (.inr (.inl ⟨_, _, _, _, hh, hl, rfl⟩)))

theorem sameConfiguration_writeRow (lanes : Lanes) (a : Addr) (v : Word) (s : State) (r : WriteRow) :
    SameConfiguration s (writeRow lanes a v s r) := by
  rcases writeRow_cases lanes a v s r with h | ⟨d, h⟩ | ⟨i, b, _, h⟩ | ⟨i, b, j, c, _, _, h⟩ | ⟨i, b, _, h⟩ |
    ⟨n, p, h⟩ | h | h <;> rw [h]
  · exact SameConfiguration.refl s
  · exact (sameStore_raise s d).configuration
  · exact ⟨rfl, rfl, rfl, rfl, rfl, rfl⟩
  · exact ⟨rfl, rfl, rfl, rfl, rfl, rfl⟩
  · exact ⟨rfl, rfl, rfl, rfl, rfl, rfl⟩
  · exact ⟨rfl, rfl, rfl, rfl, rfl, rfl⟩
  · exact (sameStore_vdpWriteData v lanes s).configuration
  · exact (sameStore_vdpWriteCtrl v lanes s).configuration

theorem writeRow_seq (lanes : Lanes) (a : Addr) (v : Word) (s : State) (r : WriteRow) :
    (writeRow lanes a v s r).seq = s.seq := by
  rcases writeRow_cases lanes a v s r with h | ⟨d, h⟩ | ⟨i, b, _, h⟩ | ⟨i, b, j, c, _, _, h⟩ | ⟨i, b, _, h⟩ |
    ⟨n, p, h⟩ | h | h <;> rw [h]
  · rfl
  · rfl
  · rfl
  · rfl
  · rfl
  · exact (sameStore_vdpWriteData v lanes s).seq
  · exact (sameStore_vdpWriteCtrl v lanes s).seq

/-! ### The CPU's calls -/

theorem sameConfiguration_serve (cb : Option Handle) (q : BusRequest) (s : State) :
    SameConfiguration s (serve cb q s) := by
  unfold serve
  split
  · exact ((sameStore_busRead cb q.lanes q.addr s).trans (sameStore_emit _ _)).configuration
  · exact (sameConfiguration_writeRow _ _ _ s _).trans (sameStore_emit _ _).configuration

theorem serve_seq (cb : Option Handle) (q : BusRequest) (s : State) : (serve cb q s).seq = s.seq := by
  unfold serve
  split
  · exact ((sameStore_busRead cb q.lanes q.addr s).trans (sameStore_emit _ _)).seq
  · exact writeRow_seq _ _ _ s _

theorem sameConfiguration_serveAll (cb : Option Handle) (qs : List BusRequest) :
    ∀ s : State, SameConfiguration s (serveAll cb qs s) := by
  induction qs with
  | nil => exact SameConfiguration.refl
  | cons q rest ih => exact fun s => (sameConfiguration_serve cb q s).trans (ih _)

theorem serveAll_seq (cb : Option Handle) (qs : List BusRequest) :
    ∀ s : State, (serveAll cb qs s).seq = s.seq := by
  induction qs with
  | nil => exact fun _ => rfl
  | cons q rest ih => exact fun s => (ih _).trans (serve_seq cb q s)

/-- A CPU call records itself, then serves some list of transactions, `env` having been drawn from. -/
theorem cpuCall_spec (e : Event) (cb : Option Handle) (s : State) :
    ∃ qs v, cpuCall e cb s = serveAll cb qs ((s.emit e).setEnv v) := by
  obtain ⟨qs, v, h⟩ := drawCpuWork_spec (s.emit e)
  exact ⟨qs, v, by simp only [cpuCall, h]⟩

/-- Scripted: the transactions are the script's. -/
theorem cpuCall_scripted (e : Event) (cb : Option Handle) (s : State) {qs : List BusRequest}
    {rest : List (List BusRequest)} (h : s.env.cpuWork = qs :: rest) :
    cpuCall e cb s = serveAll cb qs ((s.emit e).setEnv { s.env with cpuWork := rest }) := by
  simp only [cpuCall, drawCpuWork, State.emit_env, h]

/-- What a CPU call does, whole: every caller cites this and does not unfold the call. -/
theorem isCpuCall_cpuCall (e : Event) (cb : Option Handle) (s : State) : IsCpuCall e cb s (cpuCall e cb s) := by
  cases h : s.env.cpuWork with
  | nil =>
    refine ⟨Config.freeCpuWork s.env.drawn, { s.env with drawn := s.env.drawn + 1 }, ?_, ?_, fun _ => ⟨rfl, rfl⟩⟩
    · have hd : drawCpuWork (s.emit e) = (Config.freeCpuWork s.env.drawn, (s.emit e).drew) := by
        simp only [drawCpuWork, State.emit_env, h]
      rw [cpuCall, hd]
      rfl
    · simp [h]
  | cons work rest =>
    refine ⟨work, { s.env with cpuWork := rest }, cpuCall_scripted e cb s h, ?_, ?_⟩
    · rintro work' rest' h'
      obtain ⟨rfl, rfl⟩ := List.cons.inj (h.symm.trans h')
      exact ⟨rfl, rfl⟩
    · simp [h]

theorem sameConfiguration_cpuCall (e : Event) (cb : Option Handle) (s : State) :
    SameConfiguration s (cpuCall e cb s) := by
  obtain ⟨qs, v, h⟩ := cpuCall_spec e cb s
  rw [h]
  exact ((sameStore_emit s e).trans (sameStore_setEnv _ v)).configuration.trans (sameConfiguration_serveAll cb qs _)

theorem cpuCall_seq (e : Event) (cb : Option Handle) (s : State) : (cpuCall e cb s).seq = s.seq := by
  obtain ⟨qs, v, h⟩ := cpuCall_spec e cb s
  rw [h, serveAll_seq]
  rfl

/-! ### The parts of a frame -/

theorem sameConfiguration_moveTo (s : State) (p : Option Position) : SameConfiguration s (s.moveTo p) :=
  ⟨rfl, rfl, rfl, rfl, rfl, rfl⟩

theorem sameConfiguration_stepTo (cb : Callbacks) (p : Position) (s : State) :
    SameConfiguration s (stepTo cb p s) :=
  (sameConfiguration_cpuCall _ _ s).trans (sameConfiguration_moveTo _ _)

theorem sameConfiguration_runUnits (cb : Callbacks) (l n : Nat) :
    ∀ (u : Nat) (s : State), SameConfiguration s (runUnits cb l n u s) := by
  induction n with
  | zero => exact fun _ => SameConfiguration.refl
  | succ n ih =>
    exact fun u s => ((sameConfiguration_stepTo cb _ s).trans (sameConfiguration_stepTo cb _ _)).trans (ih _ _)

theorem sameConfiguration_hintTest (cb : Callbacks) (s : State) : SameConfiguration s (hintTest cb s) := by
  unfold hintTest
  have h := (sameStore_vdpHintEnabled s).configuration
  dsimp only
  split
  · exact h.trans (sameConfiguration_cpuCall _ _ _)
  · exact h

theorem sameConfiguration_vintTest (cb : Callbacks) (s : State) : SameConfiguration s (vintTest cb s) := by
  unfold vintTest
  have h := (sameStore_vdpVintEnabled s).configuration
  dsimp only
  split
  · exact h.trans (sameConfiguration_cpuCall _ _ _)
  · exact h

theorem sameConfiguration_endLine (cb : Callbacks) (l : Nat) (s : State) : SameConfiguration s (endLine cb l s) :=
  ((sameStore_vdpRender l cb.scanline s).configuration.trans (sameConfiguration_hintTest cb _)).trans
    (sameConfiguration_moveTo _ _)

theorem sameConfiguration_lineBody (cb : Callbacks) (U l : Nat) (s : State) :
    SameConfiguration s (lineBody cb U l s) :=
  (sameConfiguration_runUnits cb l U 0 s).trans (sameConfiguration_endLine cb l _)

theorem sameConfiguration_runLines (cb : Callbacks) (U n : Nat) :
    ∀ (l : Nat) (s : State), SameConfiguration s (runLines cb U n l s) := by
  induction n with
  | zero => exact fun _ => SameConfiguration.refl
  | succ n ih => exact fun l s => (sameConfiguration_lineBody cb U l s).trans (ih _ _)

/-- A frame leaves the parameters, the ROM, the flags, the lifecycle and the requests alone. -/
theorem sameConfiguration_runFrame (cb : Callbacks) (s : State) : SameConfiguration s (runFrame cb s) :=
  (((sameConfiguration_moveTo s _).trans (sameConfiguration_runLines cb _ _ _ _)).trans
    (sameConfiguration_vintTest cb _)).trans (sameConfiguration_moveTo _ _)

end Sys2Proof.Machine
end

