-- ==== Sys2Proof/Laws/PerInstr.lean ====
section
/-! SUPPORT. The family `LegalDescriptor`: what an instruction is encoded as is never one of the descriptors that
30_encoding.md R86 refuses. One lemma per constructor of `Instr`. -/

namespace Sys2Proof.Laws.LegalDescriptor

/-- The encoding of `i` decodes, whatever the ROM size. -/
def Statement (i : Instr) : Prop := ∀ size, ∃ j, decode size (encode i) = .ok j

theorem of_read {i : Instr} {lanes : Lanes} {a : Addr} (h : encode i = .read lanes a) : Statement i :=
  fun size => ⟨_, by rw [h]; exact decode_read size lanes a⟩

theorem of_write {i : Instr} {lanes : Lanes} {a : Addr} {v : Word} (h : encode i = .write lanes a v) : Statement i :=
  fun size => ⟨_, by rw [h]; exact decode_write size lanes a v⟩

theorem of_peek {i : Instr} {a : Addr} (h : encode i = .peek a) : Statement i :=
  fun size => ⟨_, by rw [h]; exact decode_peek size a⟩

theorem rdRom (lanes : Lanes) (a : Addr) : Statement (.rdRom lanes a) := of_read rfl
theorem rdSramW (a : Addr) : Statement (.rdSramW a) := of_read rfl
theorem rdSramB (lanes : Lanes) (a : Addr) : Statement (.rdSramB lanes a) := of_read rfl
theorem rdSound (lanes : Lanes) (a : Addr) : Statement (.rdSound lanes a) := of_read rfl
theorem rdJoy0Data (lanes : Lanes) : Statement (.rdJoy0Data lanes) := of_read rfl
theorem rdJoy12Data (lanes : Lanes) (a : Addr) : Statement (.rdJoy12Data lanes a) := of_read rfl
theorem rdJoyCtrl0 (lanes : Lanes) : Statement (.rdJoyCtrl0 lanes) := of_read rfl
theorem rdJoyCtrl1 (lanes : Lanes) : Statement (.rdJoyCtrl1 lanes) := of_read rfl
theorem rdJoyCtrl2 (lanes : Lanes) : Statement (.rdJoyCtrl2 lanes) := of_read rfl
theorem rdMemmode (lanes : Lanes) : Statement (.rdMemmode lanes) := of_read rfl
theorem rdBusreq (lanes : Lanes) : Statement (.rdBusreq lanes) := of_read rfl
theorem rdZ80rst (lanes : Lanes) : Statement (.rdZ80rst lanes) := of_read rfl
theorem rdVdpData (lanes : Lanes) (a : Addr) : Statement (.rdVdpData lanes a) := of_read rfl
theorem rdVdpCtrl (lanes : Lanes) (a : Addr) : Statement (.rdVdpCtrl lanes a) := of_read rfl
theorem rdHv (lanes : Lanes) : Statement (.rdHv lanes) := of_read rfl
theorem rdPsg (lanes : Lanes) : Statement (.rdPsg lanes) := of_read rfl
theorem rdWram (lanes : Lanes) (a : Addr) : Statement (.rdWram lanes a) := of_read rfl
theorem rdInvalid (lanes : Lanes) (a : Addr) : Statement (.rdInvalid lanes a) := of_read rfl
theorem wrRom (lanes : Lanes) (a : Addr) (v : Word) : Statement (.wrRom lanes a v) := of_write rfl
theorem wrSramW (a : Addr) (v : Word) : Statement (.wrSramW a v) := of_write rfl
theorem wrSramB (lanes : Lanes) (a : Addr) (v : Word) : Statement (.wrSramB lanes a v) := of_write rfl
theorem wrSound (lanes : Lanes) (a : Addr) (v : Word) : Statement (.wrSound lanes a v) := of_write rfl
theorem wrJoyData0 (lanes : Lanes) (v : Word) : Statement (.wrJoyData0 lanes v) := of_write rfl
theorem wrJoyData1 (lanes : Lanes) (v : Word) : Statement (.wrJoyData1 lanes v) := of_write rfl
theorem wrJoyData2 (lanes : Lanes) (v : Word) : Statement (.wrJoyData2 lanes v) := of_write rfl
theorem wrJoyCtrl0 (lanes : Lanes) (v : Word) : Statement (.wrJoyCtrl0 lanes v) := of_write rfl
theorem wrJoyCtrl1 (lanes : Lanes) (v : Word) : Statement (.wrJoyCtrl1 lanes v) := of_write rfl
theorem wrJoyCtrl2 (lanes : Lanes) (v : Word) : Statement (.wrJoyCtrl2 lanes v) := of_write rfl
theorem wrMemmode (lanes : Lanes) (v : Word) : Statement (.wrMemmode lanes v) := of_write rfl
theorem wrBusreq (lanes : Lanes) (v : Word) : Statement (.wrBusreq lanes v) := of_write rfl
theorem wrZ80rst (lanes : Lanes) (v : Word) : Statement (.wrZ80rst lanes v) := of_write rfl
theorem wrVdpData (lanes : Lanes) (a : Addr) (v : Word) : Statement (.wrVdpData lanes a v) := of_write rfl
theorem wrVdpCtrl (lanes : Lanes) (a : Addr) (v : Word) : Statement (.wrVdpCtrl lanes a v) := of_write rfl
theorem wrHv (lanes : Lanes) (v : Word) : Statement (.wrHv lanes v) := of_write rfl
theorem wrPsg (lanes : Lanes) (v : Word) : Statement (.wrPsg lanes v) := of_write rfl
theorem wrWram (lanes : Lanes) (a : Addr) (v : Word) : Statement (.wrWram lanes a v) := of_write rfl
theorem wrInvalid (lanes : Lanes) (a : Addr) (v : Word) : Statement (.wrInvalid lanes a v) := of_write rfl
theorem peekRom (a : Addr) : Statement (.peekRom a) := of_peek rfl
theorem peekWram (a : Addr) : Statement (.peekWram a) := of_peek rfl
theorem peekInvalid (a : Addr) : Statement (.peekInvalid a) := of_peek rfl
theorem init : Statement .init := fun _ => ⟨_, rfl⟩
theorem reset : Statement .reset := fun _ => ⟨_, rfl⟩
theorem installRom (bytes : List Byte) (length : Nat) : Statement (.installRom bytes length) := fun _ => ⟨_, rfl⟩
theorem setRomWriteable (b : Int) : Statement (.setRomWriteable b) := fun _ => ⟨_, rfl⟩
theorem setPal (b : Int) : Statement (.setPal b) := fun _ => ⟨_, rfl⟩
theorem setJapanese (b : Int) : Statement (.setJapanese b) := fun _ => ⟨_, rfl⟩
theorem runFrame (scanlineCallback : Handle) (inputQueryCallback : Handle) : Statement (.runFrame scanlineCallback inputQueryCallback) := fun _ => ⟨_, rfl⟩
theorem stateSize : Statement .stateSize := fun _ => ⟨_, rfl⟩

end Sys2Proof.Laws.LegalDescriptor
end

