-- ==== Sys2Proof/Tests/Slice0.lean ====
section
/-! SUPPORT. The model's own tests. Expected values are those of spec/95_test_vectors.md (the vector's name stands in each
docstring) or are computed by hand from the cited rule. -/

namespace Sys2Proof.Tests

open Sys2Proof.Machine

/-! ### WellFormed: for each check an ill-formed term that it refuses -/

/-- The addresses just outside each row's operands, and `H != L` for the byte rows. -/
theorem test_wellFormed_refuses :
    ([ .rdRom .both 0x000005, .wrRom .low 0x000005 0, .peekRom 0x000005,
       .rdSramW 0xA02000, .wrSramW 0x9FFFFF 0, .rdSramB .both 0xA00010, .rdSramB .high 0xA02000,
       .wrSramB .both 0xA00010 0, .wrSramB .low 0x9FFFFF 0,
       .rdSound .both 0xA04001, .wrSound .both 0xA04004 0,
       .rdJoy12Data .low 0xA10002, .rdVdpData .both 0xC00004, .wrVdpData .both 0xC00001 0,
       .rdVdpCtrl .both 0xC00002, .wrVdpCtrl .both 0xC00008 0,
       .rdWram .both 0xDFFFFF, .wrWram .both 0xDFFFFF 0, .peekWram 0xDFFFFF,
       .rdInvalid .both 0x000004, .rdInvalid .both 0xA00000, .rdInvalid .both 0xA04002, .rdInvalid .both 0xA10006,
       .rdInvalid .both 0xA11200, .rdInvalid .both 0xC00002, .rdInvalid .both 0xC00006, .wrInvalid .both 0xE00000 0,
       .wrInvalid .low 0xA10008 0, .peekInvalid 0x000004, .peekInvalid 0xE00000,
       .installRom [0x12, 0x34] 3 ] : List Instr).all (fun i => !wellFormed 5 i) = true := by decide

/-- The same rows at their first and last admitted operands. -/
theorem test_wellFormed_admits :
    ([ .rdRom .both 0x000004, .rdSramW 0xA00000, .rdSramB .low 0xA01FFF, .rdSound .high 0xA04002,
       .rdJoy12Data .low 0xA10006, .rdVdpData .both 0xC00002, .wrVdpCtrl .low 0xC00006 0, .rdWram .both 0xE00000,
       .wrWram .both 0xFFFFFF 0, .rdInvalid .both 0x000005, .wrInvalid .both 0xA10003 0, .peekInvalid 0xA10002,
       .peekWram 0xFFFFFF, .installRom [0x12, 0x34] 2 ] : List Instr).all (wellFormed 5) = true := by decide

/-! ### Decode: each row's descriptor, written out in hexadecimal from R80 and R87 -/

/-- Whether the descriptor `t` with data `v` decodes to `i` when `S.rom.size = 5`. -/
def decodesTo (x : Descriptor × Word × Instr) : Bool :=
  match decode 5 (.transaction x.1 x.2.1) with
  | .ok i => i == x.2.2
  | .error _ => false

/-- Vectors V1 to V39 of §2.1, every read row. -/
theorem test_decode_read_rows :
    ([ (0x3000000, 0, .rdRom .both 0x000000), (0x1000000, 0, .rdRom .low 0x000000),
       (0x3A00010, 0, .rdSramW 0xA00010), (0x2A00010, 0, .rdSramB .high 0xA00010),
       (0x1A01FFF, 0, .rdSramB .low 0xA01FFF), (0x3A04002, 0, .rdSound .both 0xA04002),
       (0x3A10002, 0, .rdJoy0Data .both), (0x2A10006, 0, .rdJoy12Data .high 0xA10006),
       (0x1A10008, 0, .rdJoyCtrl0 .low), (0x2A1000A, 0, .rdJoyCtrl1 .high), (0x3A1000C, 0, .rdJoyCtrl2 .both),
       (0x3A11000, 0, .rdMemmode .both), (0x3A11100, 0, .rdBusreq .both), (0x3A11200, 0, .rdZ80rst .both),
       (0x2C00000, 0, .rdVdpData .high 0xC00000), (0x1C00004, 0, .rdVdpCtrl .low 0xC00004),
       (0x3C00008, 0, .rdHv .both), (0x3C00010, 0, .rdPsg .both), (0x3FFFFFF, 0, .rdWram .both 0xFFFFFF),
       (0x3000005, 0, .rdInvalid .both 0x000005), (0x3A04001, 0, .rdInvalid .both 0xA04001),
       (0x3DFFFFE, 0, .rdInvalid .both 0xDFFFFE) ] : List (Descriptor × Word × Instr)).all decodesTo = true := by
  decide

/-- Vectors W1 to W27 of §2.2, every write row. -/
theorem test_decode_write_rows :
    ([ (0x7000000, 0xFFFF, .wrRom .both 0x000000 0xFFFF), (0x7A00020, 0x1234, .wrSramW 0xA00020 0x1234),
       (0x6A00020, 0xAB99, .wrSramB .high 0xA00020 0xAB99), (0x6A04000, 0x2A00, .wrSound .high 0xA04000 0x2A00),
       (0x5A10002, 0x00FF, .wrJoyData0 .low 0x00FF), (0x5A10004, 0x00FF, .wrJoyData1 .low 0x00FF),
       (0x5A10006, 0x00FF, .wrJoyData2 .low 0x00FF), (0x5A10008, 0x0040, .wrJoyCtrl0 .low 0x0040),
       (0x7A1000A, 0x1234, .wrJoyCtrl1 .both 0x1234), (0x5A1000C, 0x00C3, .wrJoyCtrl2 .low 0x00C3),
       (0x7A11000, 0, .wrMemmode .both 0), (0x7A11100, 0x0100, .wrBusreq .both 0x0100),
       (0x7A11200, 0x0100, .wrZ80rst .both 0x0100), (0x5C00002, 0x00AA, .wrVdpData .low 0xC00002 0x00AA),
       (0x7C00004, 0x8154, .wrVdpCtrl .both 0xC00004 0x8154), (0x7C00008, 0x1234, .wrHv .both 0x1234),
       (0x5C00010, 0x009F, .wrPsg .low 0x009F), (0x7FF1000, 0x1234, .wrWram .both 0xFF1000 0x1234),
       (0x7000005, 0x1111, .wrInvalid .both 0x000005 0x1111), (0x7A10003, 0x00FF, .wrInvalid .both 0xA10003 0x00FF) ]
      : List (Descriptor × Word × Instr)).all decodesTo = true := by decide

/-- Vectors K1 to K8 of §2.4, every peek row. -/
theorem test_decode_peek_rows :
    ([ (0xB000000, 0, .peekRom 0x000000), (0xBFF1000, 0, .peekWram 0xFF1000), (0xB000400, 0, .peekInvalid 0x000400),
       (0xBA00000, 0, .peekInvalid 0xA00000) ] : List (Descriptor × Word × Instr)).all decodesTo = true := by decide

/-- Vectors V40, W28, K9 and K10: the refused descriptors of R86. -/
theorem test_decode_refuses :
    ([ (0x0A10002, .noLane), (0x4FF0000, .noLane), (0xF000200, .peekWrite), (0xA000200, .peekLanes) ]
      : List (Descriptor × DecodeError)).all
      (fun x => match decode 5 (.transaction x.1 0) with | .ok _ => false | .error e => e == x.2) = true := by decide

/-- A bare table word: `RD.W 000000` under a full ROM, a write with its data in bits 47:32, bits 31:28 refused. -/
theorem test_decodeTableWord :
    decodeTableWord 32 0x3000000 = some (.rdRom .both 0x000000) ∧
      decodeTableWord 48 0x123407FF1000 = some (.wrWram .both 0xFF1000 0x1234) ∧
      decodeTableWord 32 0x10000000 = none := by decide

/-! ### Effects -/

/-- The state a meaning answers. -/
def after (i : Instr) (s : State) : Option State :=
  match exec i s with
  | .next t => some t
  | _ => none

/-- Why a meaning refuses. -/
def refusal (i : Instr) (s : State) : Option Refusal :=
  match exec i s with
  | .refused r => some r
  | _ => none

/-- A store with some bytes. -/
def bytesAt (cells : List Host.Cell) : Memory := { fill := .zero, cells := cells }

/-- §2.1's start state. -/
def readStart : State :=
  { State.reset with
    rom := { buffer := bytesAt [(0, 0x12), (1, 0x34), (2, 0x56), (3, 0x78), (4, 0x9A)], size := 5, writeable := false }
    secondaryRam := bytesAt [(0, 0x33), (0x10, 0xAB), (0x11, 0xCD), (0x1FFF, 0x44)]
    workRam := bytesAt [(0, 0x22), (0xFFFE, 0x5A), (0xFFFF, 0xA5)]
    joypads := { State.reset.joypads with p1 := { control := 0xC3, data := 0 } }
    env := { Env.free with vdpWords := [0xBEEF] } }

/-- A read's answer and the diagnostics it appends. -/
def answerOf (i : Instr) (s : State) : Option (Result × List Diag) := (after i s).map fun t => (t.result, t.diag)

/-- V4 and V6: the low lane past the image, and an odd address. -/
theorem test_rdRom :
    answerOf (.rdRom .both 0x000004) readStart = some (.word 0x9A00, []) ∧
      answerOf (.rdRom .both 0x000003) readStart = some (.word 0x789A, []) := by decide

/-- V7 -/
theorem test_rdSramW :
    answerOf (.rdSramW 0xA00010) readStart = some (.word 0, [.busWidth .R 0xA00010]) := by decide

/-- V10 and V11: the low lane wraps. -/
theorem test_rdSramB :
    answerOf (.rdSramB .low 0xA01FFF) readStart = some (.word 0x0033, []) ∧
      answerOf (.rdSramB .high 0xA01FFF) readStart = some (.word 0x4400, []) := by decide

/-- V13, V25 to V27, V32, V33: the stubs that read 0. -/
theorem test_stub_reads :
    ([.rdSound .both 0xA04000, .rdMemmode .both, .rdBusreq .both, .rdZ80rst .both, .rdHv .both, .rdPsg .both]
      : List Instr).all (fun i => answerOf i readStart == some (.word 0, [])) = true := by decide

/-- V19 and V20 -/
theorem test_rdJoy12Data :
    answerOf (.rdJoy12Data .both 0xA10004) readStart = some (.word 0xFFFF, []) ∧
      answerOf (.rdJoy12Data .high 0xA10006) readStart = some (.word 0xFF00, []) := by decide

/-- V22 and V23, and the two other ports after `INIT`. -/
theorem test_rdJoyCtrl :
    answerOf (.rdJoyCtrl1 .low) readStart = some (.word 0x00C3, []) ∧
      answerOf (.rdJoyCtrl1 .high) readStart = some (.word 0, []) ∧
      answerOf (.rdJoyCtrl0 .low) readStart = some (.word 0, []) ∧
      answerOf (.rdJoyCtrl2 .both) readStart = some (.word 0, []) := by decide

/-- V29: the facade's word masked, one call. -/
theorem test_rdVdpData :
    (after (.rdVdpData .high 0xC00000) readStart).map (fun t => (t.result, t.trace)) =
      some (.word 0xBE00, [.vdpReadData 0xBEEF]) := by decide

/-- V30, with the word this test scripts. -/
theorem test_rdVdpCtrl :
    (after (.rdVdpCtrl .low 0xC00004) { readStart with env := { Env.free with vdpWords := [0x3408] } }).map
      (fun t => (t.result, t.trace)) = some (.word 0x0008, [.vdpReadCtrl 0x3408]) := by decide

/-- V36 and V37: a mirror, and the low lane's wrap. -/
theorem test_rdWram :
    answerOf (.rdWram .both 0xE0FFFE) readStart = some (.word 0x5AA5, []) ∧
      answerOf (.rdWram .both 0xFFFFFF) readStart = some (.word 0xA522, []) := by decide

/-- V5 -/
theorem test_rdInvalid :
    answerOf (.rdInvalid .both 0x000005) readStart = some (.word 0, [.invalidAddress .R 0x000005]) := by decide

/-- §2.2's start state. -/
def writeStart : State :=
  { State.reset with
    rom := { buffer := bytesAt [(0, 0x12), (1, 0x34)], size := 2, writeable := true }
    joypads := { State.reset.joypads with p0 := { control := 0x40, data := 0 } } }

/-- W2: rejected although `writeable` is set. -/
theorem test_wrRom :
    (after (.wrRom .low 0x000000 0x00FF) writeStart).map (fun t => (t.rom.buffer.cells, t.diag)) =
      some ([(0, 0x12), (1, 0x34)], [.romWrite 0x000000]) := by decide

/-- W4 -/
theorem test_wrSramW :
    (after (.wrSramW 0xA00020 0x1234) writeStart).map (fun t => (t.secondaryRam.cells, t.diag)) =
      some ([], [.busWidth .W 0xA00020]) := by decide

/-- W5 and W7: the other lane's bits ignored, and the wrap. -/
theorem test_wrSramB :
    (after (.wrSramB .high 0xA00020 0xAB99) writeStart).map (fun t => t.secondaryRam.cells) = some [(0x20, 0xAB)] ∧
      (after (.wrSramB .low 0xA01FFF 0x1299) writeStart).map (fun t => t.secondaryRam.cells) = some [(0, 0x99)] := by
  decide

/-- W8, W16 to W18, W22, W23: the stubs change nothing. -/
theorem test_stub_writes :
    ([.wrSound .high 0xA04000 0x2A00, .wrMemmode .both 0, .wrBusreq .both 0x0100, .wrZ80rst .both 0x0100,
      .wrHv .both 0x1234, .wrPsg .low 0x009F] : List Instr).all (fun i => after i writeStart == some writeStart) = true := by
  decide

/-- W9 and W10: masked by `control`, and the high lane alone has no effect. -/
theorem test_wrJoyData0 :
    (after (.wrJoyData0 .low 0x00FF) writeStart).map (fun t => t.joypads.p0) = some { control := 0x40, data := 0x40 } ∧
      (after (.wrJoyData0 .high 0xFF00) writeStart).map (fun t => t.joypads) = some writeStart.joypads := by decide

/-- W11 and W13: each port masks with its own `control`. -/
theorem test_wrJoyData12 :
    (after (.wrJoyData1 .low 0x00FF) writeStart).map (fun t => t.joypads.p1.data) = some 0x00 ∧
      ((after (.wrJoyCtrl2 .low 0x00C3) writeStart).bind (after (.wrJoyData2 .low 0x00FF))).map
        (fun t => t.joypads.p2) = some { control := 0xC3, data := 0xC3 } := by decide

/-- W14 and J10: stored verbatim; `data` is not re-masked. -/
theorem test_wrJoyCtrl :
    (after (.wrJoyCtrl1 .both 0x1234) writeStart).map (fun t => t.joypads.p1.control) = some 0x34 ∧
      (after (.wrJoyCtrl0 .low 0x0040)
        { State.reset with joypads := { State.reset.joypads with p0 := { control := 0xFF, data := 0xFF } } }).map
        (fun t => t.joypads.p0) = some { control := 0x40, data := 0xFF } := by decide

/-- W20 -/
theorem test_wrVdpData :
    (after (.wrVdpData .low 0xC00002 0x00AA) writeStart).map (fun t => (t.trace, t.diag)) =
      some ([.vdpWriteData 0x00AA .low], []) := by decide

/-- §2.4's nested peeks: `Peek(0xA00000)` then `Peek(0xFF1000)` inside `WR.W C00004, 9400`. -/
theorem test_wrVdpCtrl_nested_peeks :
    (after (.wrVdpCtrl .both 0xC00004 0x9400)
      { State.reset with
        workRam := bytesAt [(0x1000, 0x12), (0x1001, 0x34)]
        env := { Env.free with peekWork := [[0xA00000, 0xFF1000]] } }).map (fun t => (t.trace, t.diag)) =
      some ([.vdpWriteCtrl 0x9400 .both, .peeked 0xA00000 0x0000, .peeked 0xFF1000 0x1234],
        [.invalidAddress .P 0xA00000]) := by decide

/-- W25 after W24, and W26: one lane keeps the other byte, and the low lane wraps. -/
theorem test_wrWram :
    ((after (.wrWram .both 0xFF1000 0x1234) writeStart).bind (after (.wrWram .high 0xE01000 0x77FF))).map
        (fun t => t.workRam.cells) = some [(0x1000, 0x77), (0x1001, 0x34)] ∧
      (after (.wrWram .both 0xFFFFFF 0xABCD) writeStart).map (fun t => t.workRam.cells) =
        some [(0, 0xCD), (0xFFFF, 0xAB)] := by decide

/-- W27 -/
theorem test_wrInvalid :
    (after (.wrInvalid .both 0xA10000 0) writeStart).map (fun t => t.diag) =
      some [.invalidAddress .W 0xA10000] := by decide

/-- A state whose port 0 holds these registers, with the oracle's next answers. -/
def padStart (control data : Byte) (answers : List Bool) : State :=
  { State.reset with
    joypads := { State.reset.joypads with p0 := { control := control, data := data } }
    env := { Env.free with queries := answers } }

/-- J2 (group 1, `UP` pressed: queries C B RIGHT LEFT DOWN UP) and J9 (stored ones mask their buttons). -/
theorem test_rdJoy0Data_group1 :
    answerOf (.rdJoy0Data .low) (padStart 0x40 0x40 [false, false, false, false, false, true]) =
        some (.word 0x007E, []) ∧
      answerOf (.rdJoy0Data .both) (padStart 0xFF 0xFF [true, true, true, true, true, true]) =
        some (.word 0x00FF, []) := by decide

/-- S4 (group 0, `UP` pressed: queries START A DOWN UP), J13, and V17: a high-lane read makes no query. -/
theorem test_rdJoy0Data_group0 :
    answerOf (.rdJoy0Data .low) (padStart 0x40 0x00 [false, false, false, true]) = some (.word 0x0032, []) ∧
      answerOf (.rdJoy0Data .low) (padStart 0xC0 0x80 [true, true, true, true]) = some (.word 0x0080, []) ∧
      (after (.rdJoy0Data .high) (padStart 0x40 0x00 [])).map (fun t => (t.result, t.trace)) =
        some (.word 0, []) := by decide

/-- §2.4's start state. -/
def peekStart : State :=
  { State.reset with
    rom := { buffer := bytesAt [(0x200, 0xCA), (0x201, 0xFE)], size := 0x400, writeable := false }
    workRam := bytesAt [(0, 0x22), (0x1000, 0x12), (0x1001, 0x34), (0xFFFF, 0x11)] }

/-- K1, K4, K5 and K6. -/
theorem test_peeks :
    answerOf (.peekRom 0x000200) peekStart = some (.word 0xCAFE, []) ∧
      answerOf (.peekWram 0xE11000) peekStart = some (.word 0x1234, []) ∧
      answerOf (.peekWram 0xFFFFFF) peekStart = some (.word 0x1122, []) ∧
      answerOf (.peekInvalid 0xA00000) peekStart = some (.word 0, [.invalidAddress .P 0xA00000]) := by decide

/-! ### Host operations -/

/-- A machine allocated and not yet initialised, with a used store. -/
def allocated : State := { writeStart with initialised := false, diag := [.romWrite 0], pal := true }

/-- R39: `INIT` clears the store and the log, calls the VDP's init; H12: a second one is refused. -/
theorem test_init :
    (after .init allocated).map (fun t => (t.rom, t.workRam, t.secondaryRam)) =
        some (State.reset.rom, Memory.zeroes, Memory.zeroes) ∧
      (after .init allocated).map (fun t => (t.joypads, t.pal, t.japanese)) =
        some (State.reset.joypads, false, false) ∧
      (after .init allocated).map (fun t => (t.diag, t.initialised, t.trace)) = some ([], true, [.vdpInit]) ∧
      refusal .init State.reset = some .secondInit := by decide

/-- H11: the CPU's vector reads with `S.rom.size = 0` raise diagnostics and read 0; RAM is kept. -/
theorem test_reset :
    (after .reset
      { State.reset with
        workRam := bytesAt [(0, 0x77)]
        env := { Env.free with cpuWork := [[⟨.read, .both, 0x000000⟩]] } }).map
        (fun t => (t.workRam.cells, t.diag, t.trace)) =
        some ([(0, 0x77)], [.invalidAddress .R 0x000000], [.cpuReset, .cpuRead .both 0x000000 0]) ∧
      refusal .reset allocated = some .notInitialised := by decide

/-- H2 and H3 (on a machine of capacity 4, to keep the image small). -/
theorem test_installRom :
    (after (.installRom [0x56] 1) writeStart).map (fun t => (t.rom.size, t.rom.buffer.cells)) =
        some (1, [(0, 0x56), (1, 0x34)]) ∧
      (after (.installRom [1, 2, 3, 4, 5] 5) { writeStart with cfg := { Params.standard with romCapacity := 4 } }).map
        (fun t => (t.rom.size, t.rom.buffer.cells, t.diag)) = some (2, [(0, 0x12), (1, 0x34)], [.oversizedRom 5]) ∧
      refusal (.installRom [0x12] 2) State.reset = some .romBufferTooShort := by decide

/-- H6 to H9: non-zero means true. -/
theorem test_setters :
    (after (.setPal 2) State.reset).map (fun t => t.pal) = some true ∧
      (after (.setPal 0) allocated).map (fun t => t.pal) = some false ∧
      (after (.setJapanese 7) State.reset).map (fun t => t.japanese) = some true ∧
      (after (.setRomWriteable (-1)) State.reset).map (fun t => t.rom.writeable) = some true := by decide

/-- H10: before `INIT` too. A host call while a frame runs is refused (R269). -/
theorem test_stateSize :
    (after .stateSize { allocated with cfg := { Params.standard with stateSize := 99 } }).map (fun t => t.result) =
        some (.size 99) ∧
      refusal .stateSize { State.reset with seq := some .vint } = some .reentered := by decide

/-- §2.5's parameters. -/
def frameParams (mclkNtsc : Nat) : Params :=
  { Params.standard with
    visibleLines := 2, linesPerFrame := 1, cpuDiv := 3, mclkNtsc := mclkNtsc, mclkPal := 1500 }

/-- A start state for §2.5: no CPU call issues a transaction. -/
def frameStart (mclkNtsc : Nat) (pal : Bool) (flags : List Bool) : State :=
  { State.reset with
    cfg := frameParams mclkNtsc
    pal := pal
    env := { Env.free with
      vdpFlags := flags, cpuWork := List.replicate 23 [], images := List.replicate 2 ⟨[], 0, 0⟩ } }

/-- F1: `step x8, render(0), hint?, int(4), step x8, render(1), hint?, int(4), vint?, int(6)`. -/
theorem test_runFrame_F1 :
    (after (.runFrame 7 8) (frameStart 1440 false [true, true, true])).map (fun t => t.trace) =
      some (List.replicate 8 .cpuStep ++
        [.vdpRender 0 7, .scanline 7 0 ⟨[], 0, 0⟩, .vdpHintEnabled true, .cpuInterrupt .level4] ++
        List.replicate 8 .cpuStep ++
        [.vdpRender 1 7, .scanline 7 1 ⟨[], 0, 0⟩, .vdpHintEnabled true, .cpuInterrupt .level4] ++
        [.vdpVintEnabled true, .cpuInterrupt .level6]) := by decide

/-- F5: `Units = 0` steps nothing. -/
theorem test_runFrame_F5 :
    (after (.runFrame 7 8) (frameStart 359 false [false, false, false])).map (fun t => (t.trace, t.seq)) =
      some ([.vdpRender 0 7, .scanline 7 0 ⟨[], 0, 0⟩, .vdpHintEnabled false,
        .vdpRender 1 7, .scanline 7 1 ⟨[], 0, 0⟩, .vdpHintEnabled false, .vdpVintEnabled false], none) := by decide

/-- R243's worked example and §2.5's budgets. -/
theorem test_units :
    units Params.standard true = 290 ∧ units Params.standard false = 243 ∧
      units (frameParams 1440) false = 4 ∧ units (frameParams 1440) true = 5 := by decide

/-- R230, R239: a joypad read inside the first CPU step of a frame (`UP` pressed) asks that frame's input-query callback,
8 here, and a store inside it reaches work RAM. -/
theorem test_runFrame_serves_transactions :
    (after (.runFrame 7 8)
      { frameStart 720 false [false, false, false] with
        joypads := (padStart 0x40 0x40 []).joypads
        env := { (frameStart 720 false [false, false, false]).env with
          queries := [false, false, false, false, false, true]
          cpuWork := [⟨.read, .low, 0xA10002⟩, ⟨.write 0x1234, .both, 0xFF1000⟩] :: List.replicate 23 [] } }).map
      (fun t => (t.trace.take 8, t.workRam.cells)) =
      some ([.cpuStep, .query (some 8) .c 6 false, .query (some 8) .b 5 false, .query (some 8) .right 3 false,
        .query (some 8) .left 2 false, .query (some 8) .down 1 false, .query (some 8) .up 0 true,
        .cpuRead .low 0xA10002 0x007E], [(0x1000, 0x12), (0x1001, 0x34)]) := by decide

/-! ### A step, and the pseudo-instructions -/

/-- `step` serves the request that `withFetchWord` places, and refuses where none is pending. -/
theorem test_step :
    (match step (State.reset.withFetchWord 32 0x3FF0000) with
      | .next t => t.result == .word 0 && t.pending == []
      | _ => false) = true ∧
      (match step State.reset with | .refused r => r == .noRequest | _ => false) = true ∧
      (match step { State.reset with pending := [.transaction 0x0A10002 0] } with
        | .refused r => r == .noLane
        | _ => false) = true := by decide

/-- R90: `RD.B` and `WR.B` at an odd address, and the words of `WR.LONG`. -/
theorem test_pseudo :
    requestRdB 0xFF0001 = .rdL 0xFF0000 ∧ requestWrB 0xFF0001 0x5A = .wrL 0xFF0000 0x5A5A ∧
      requestWrLong 0xFFFFFE 0x12345678 = [.wrW 0xFFFFFE 0x1234, .wrW 0x000000 0x5678] ∧
      (memReadByte none 0xFFFFFF readStart).1 = 0xA5 ∧
      (memWriteByte 0xFF0001 0x5A State.reset).workRam.cells = [(1, 0x5A)] := by decide

/-! ### Witnesses: for each statement of the obligations that has hypotheses, a state and operands that meet them together,
clause by clause, at the ends of their ranges. Each is named after its statement. -/

/-- The largest ROM a machine can hold: its size meets the bound `0xA00000` of D22 with equality. -/
def fullRom : State :=
  { State.reset with
    cfg := { Params.standard with romCapacity := 0xA00000 }
    rom := { buffer := Memory.zeroes, size := 0xA00000, writeable := false } }

/-- The states of these tests are ones the invariant admits. -/
theorem witness_inv : readStart.Inv ∧ writeStart.Inv ∧ peekStart.Inv ∧ fullRom.Inv :=
  ⟨⟨rfl, by decide, by decide, by decide, by decide⟩, ⟨rfl, by decide, by decide, by decide, by decide⟩,
    ⟨rfl, by decide, by decide, by decide, by decide⟩, ⟨rfl, by decide, by decide, by decide, by decide⟩⟩

theorem witness_DecodeEncodeRoundTrip :
    (0xA00000 ≤ 0xA00000 ∧ wellFormed 0xA00000 (.rdRom .both 0x9FFFFF) = true) ∧
      (0 ≤ 0xA00000 ∧ wellFormed 0 (.wrInvalid .low 0x000000 0xFFFF) = true) ∧
      wellFormed 5 (.installRom [0x12] 1) = true := by decide

theorem witness_EncodeOfDecodedIsRequest :
    decode 5 (.transaction 0x5A10002 0xFFFF) = .ok (.wrJoyData0 .low 0xFFFF) ∧
      decode 5 (.transaction 0xBE00000 0x1234) = .ok (.peekWram 0xE00000) ∧
      decode 5 (.host (.setPal 2)) = .ok (.setPal 2) := by decide

theorem witness_DecodedIsWellFormed :
    decode 5 (.transaction 0x3000004 0) = .ok (.rdRom .both 0x000004) ∧
      decode 5 (.transaction 0x3000005 0) = .ok (.rdInvalid .both 0x000005) := by decide

theorem witness_RefusedDescriptorsAreR86 :
    (let t : Descriptor := 0x0000000;
      Descriptor.p t = false ∧ Descriptor.h t = false ∧ Descriptor.l t = false) ∧
      (let t : Descriptor := 0xF000000;
        Descriptor.p t = true ∧ Descriptor.w t = true) ∧
      (let t : Descriptor := 0x9000000;
        Descriptor.p t = true ∧ ¬(Descriptor.h t = true ∧ Descriptor.l t = true)) ∧
      ({ readStart with pending := [.transaction 0x9000000 0] } : State).pending = .transaction 0x9000000 0 :: [] ∧
      ([0x000005, 0x9FFFFF, 0xA02000, 0xA10003, 0xDFFFFF] : List Addr).all (isUnmapped readStart.rom.size) = true ∧
      ([0x000005, 0xDFFFFF] : List Addr).all
        (fun a => decide (readStart.rom.size ≤ a.toNat ∧ a.toNat < 0xE00000)) = true := by decide

theorem witness_StepRunsDecodedInstruction :
    State.reset.pending = [] ∧
      (let s : State := { readStart with pending := [.rdW 0xFF0000] };
        s.pending = .rdW 0xFF0000 :: [] ∧ decode s.rom.size (.rdW 0xFF0000) = .ok (.rdWram .both 0xFF0000)) ∧
      (let s : State := { readStart with pending := [.transaction 0x0FF0000 0] };
        s.pending = .transaction 0x0FF0000 0 :: [] ∧
          decode s.rom.size (.transaction 0x0FF0000 0) = .error .noLane) := by decide

theorem witness_TransactionStepsAreDecoderCalls :
    ({ readStart with pending := [.read .low 0x000004, .peek 0] } : State).pending =
        .read .low 0x000004 :: [.peek 0] ∧
      ({ readStart with pending := [.write .high 0xFFFFFF 0x1234] } : State).pending =
        .write .high 0xFFFFFF 0x1234 :: [] ∧
      ({ readStart with pending := [.peek 0x000004] } : State).pending = .peek 0x000004 :: [] := by decide

/-- The image's last byte, with and without a byte after it in the buffer, and a write there. -/
theorem witness_ReadRomAnswersBufferBytes :
    (0x000004#24).toNat < readStart.rom.size ∧ (0x000004#24).toNat + 1 < readStart.cfg.romCapacity ∧
      (0x9FFFFF#24).toNat < fullRom.rom.size ∧ ¬((0x9FFFFF#24).toNat + 1 < fullRom.cfg.romCapacity) ∧
      Lanes.high.l = false := by decide

theorem witness_WriteRomIsRejected :
    (0x000001#24).toNat < writeStart.rom.size ∧ (0x9FFFFF#24).toNat < fullRom.rom.size ∧
      (writeStart.rom.size ≤ (0x3FFFFF#24).toNat ∧ (0x3FFFFF#24).toNat < writeStart.cfg.romCapacity ∧
        writeStart.cfg.romCapacity ≤ 0xA00000) := by decide

theorem witness_ReadSecondaryWordLogsBusWidth : readStart.rom.size ≤ 0xA00000 ∧ 0xA00000 ≤ (0xA01FFF#24).toNat ∧
    (0xA01FFF#24).toNat ≤ 0xA01FFF := by decide

theorem witness_ReadSecondaryByteAnswersLane : readStart.rom.size ≤ 0xA00000 ∧ 0xA00000 ≤ (0xA01FFF#24).toNat ∧
    (0xA01FFF#24).toNat ≤ 0xA01FFF ∧ Lanes.low ≠ .both := by decide

theorem witness_WriteSecondaryWordIsRejected : writeStart.rom.size ≤ 0xA00000 ∧ 0xA00000 ≤ (0xA00000#24).toNat ∧
    (0xA00000#24).toNat ≤ 0xA01FFF := by decide

theorem witness_WriteSecondaryByteStoresLane : writeStart.rom.size ≤ 0xA00000 ∧ 0xA00000 ≤ (0xA01FFF#24).toNat ∧
    (0xA01FFF#24).toNat ≤ 0xA01FFF ∧ Lanes.high ≠ .both ∧ writeStart.secondaryRam.wf 0x2000 = true := by decide

/-- Each address of the stub, joypad and VDP port statements, and the one hypothesis on the state that they share. -/
theorem witness_StubReadsAnswerZero :
    fullRom.rom.size ≤ 0xA00000 ∧ ((0xA04000 : Addr) = 0xA04000 ∨ (0xA04000 : Addr) = 0xA04002) ∧
      ((0xA04003 : Addr) = 0xA04001 ∨ (0xA04003 : Addr) = 0xA04003) := by decide

theorem witness_StubWritesChangeNothing :
    fullRom.rom.size ≤ 0xA00000 ∧ ((0xA04002 : Addr) = 0xA04000 ∨ (0xA04002 : Addr) = 0xA04002) := by decide

theorem witness_ReadJoypad0MultiplexesGroups :
    readStart.rom.size ≤ 0xA00000 ∧ Lanes.high.l = false ∧ Lanes.low.l = true ∧
      (padStart 0x40 0x40 []).joypads.p0.data.getLsbD 6 = true ∧
      (padStart 0xBF 0xBF []).joypads.p0.data.getLsbD 6 = false := by decide

theorem witness_ReadJoypad12AnswersOnes :
    fullRom.rom.size ≤ 0xA00000 ∧ ((0xA10006 : Addr) = 0xA10004 ∨ (0xA10006 : Addr) = 0xA10006) := by decide

/-- The hypothesis of `ReadJoypadControlAnswersByte`, `WriteJoypadDataIsMasked` and `WriteJoypadControlIsVerbatim`. -/
theorem witness_ReadJoypadControlAnswersByte : readStart.rom.size ≤ 0xA00000 := by decide
theorem witness_WriteJoypadDataIsMasked : writeStart.rom.size ≤ 0xA00000 := by decide
theorem witness_WriteJoypadControlIsVerbatim : writeStart.rom.size ≤ 0xA00000 := by decide

theorem witness_ReadVdpPortsMaskFacadeWord :
    readStart.rom.size ≤ 0xA00000 ∧ ((0xC00002 : Addr) = 0xC00000 ∨ (0xC00002 : Addr) = 0xC00002) ∧
      ((0xC00004 : Addr) = 0xC00004 ∨ (0xC00004 : Addr) = 0xC00006) := by decide

theorem witness_WriteVdpDataCallsFacade :
    writeStart.rom.size ≤ 0xA00000 ∧ ((0xC00002 : Addr) = 0xC00000 ∨ (0xC00002 : Addr) = 0xC00002) := by decide

/-- With a script of peeks left and with none, and a peek of each kind: the image's last byte, the last address below
work RAM, the top of memory. -/
theorem witness_WriteVdpControlServesPeeks :
    peekStart.rom.size ≤ 0xA00000 ∧ ((0xC00006 : Addr) = 0xC00004 ∨ (0xC00006 : Addr) = 0xC00006) ∧
      (let s : State := { peekStart with
          env := { Env.free with peekWork := [[0x0003FF, 0xDFFFFF, 0xFFFFFF], []] } };
        s.rom.size ≤ 0xA00000 ∧ s.env.peekWork = [0x0003FF, 0xDFFFFF, 0xFFFFFF] :: [[]]) ∧
      peekStart.env.peekWork = [] ∧
      (0x0003FF#24).toNat < peekStart.rom.size ∧ (0x0003FF#24).toNat + 1 < peekStart.cfg.romCapacity ∧
      0xE00000 ≤ (0xFFFFFF#24).toNat ∧ peekStart.rom.size ≤ (0xDFFFFF#24).toNat ∧ (0xDFFFFF#24).toNat < 0xE00000 := by
  decide

theorem witness_ReadWorkRamAnswersLanes :
    fullRom.rom.size ≤ 0xA00000 ∧ 0xE00000 ≤ (0xE00000#24).toNat ∧ 0xE00000 ≤ (0xFFFFFF#24).toNat := by decide

theorem witness_WriteWorkRamStoresLanes :
    writeStart.rom.size ≤ 0xA00000 ∧ 0xE00000 ≤ (0xFFFFFF#24).toNat ∧ writeStart.workRam.wf 0x10000 = true ∧
      ¬(Lanes.high.l = true ∧ 0 = ((0xFFFFFF#24).toNat + 1) % 0x10000) ∧
      ¬(Lanes.high.h = true ∧ 0 = (0xFFFFFF#24).toNat % 0x10000) := by decide

/-- The first and the last address below secondary RAM, and the first above it. -/
theorem witness_ReadUnmappedLogsInvalid :
    readStart.rom.size ≤ 0xA00000 ∧ (readStart.rom.size ≤ (0x000005#24).toNat ∧ (0x000005#24).toNat ≤ 0x9FFFFF) ∧
      (readStart.rom.size ≤ (0x9FFFFF#24).toNat ∧ (0x9FFFFF#24).toNat ≤ 0x9FFFFF) ∧
      isUnmapped readStart.rom.size 0xA02000 = true ∧ isUnmapped fullRom.rom.size 0xDFFFFF = true := by decide

theorem witness_WriteUnmappedLogsInvalid :
    writeStart.rom.size ≤ 0xA00000 ∧ (writeStart.rom.size ≤ (0x000002#24).toNat ∧ (0x000002#24).toNat ≤ 0x9FFFFF) ∧
      isUnmapped writeStart.rom.size 0xA02000 = true ∧ isUnmapped fullRom.rom.size 0xDFFFFF = true := by decide

theorem witness_BusWriteKeepsRomAndFlags : (0x000001#24).toNat < writeStart.rom.size := by decide

/-- Two mirrors, the low lane of one of them at the top of memory. -/
theorem witness_WorkRamWordReadsBackThroughMirrors :
    writeStart.Inv ∧ 0xE00000 ≤ (0xFFFFFF#24).toNat ∧ 0xE00000 ≤ (0xE0FFFF#24).toNat ∧
      (0xFFFFFF#24).toNat % 0x10000 = (0xE0FFFF#24).toNat % 0x10000 := ⟨witness_inv.2.1, by decide⟩

theorem witness_CpuReadSeesItsEarlierWrite : writeStart.Inv ∧ 0xE00000 ≤ (0xE00000#24).toNat :=
  ⟨witness_inv.2.1, by decide⟩

/-- The last byte of each RAM, and another byte of each. -/
theorem witness_MemoryByteReadsBack :
    writeStart.Inv ∧ 0xE00000 ≤ (0xFFFFFF#24).toNat ∧
      (0xA00000 ≤ (0xA01FFF#24).toNat ∧ (0xA01FFF#24).toNat ≤ 0xA01FFF) ∧
      (0xE00000 ≤ (0xE0FFFE#24).toNat ∧
        ¬(0xE00000 ≤ (0xFFFFFF#24).toNat ∧ (0xE0FFFE#24).toNat % 0x10000 = (0xFFFFFF#24).toNat % 0x10000)) ∧
      (0xA00000 ≤ (0xA00000#24).toNat ∧ (0xA00000#24).toNat ≤ 0xA01FFF ∧ (0xA00000 : Addr) ≠ 0xA01FFF) :=
  ⟨witness_inv.2.1, by decide⟩

/-- Both values of TH in the written word. -/
theorem witness_TwoPhaseJoypadRead : (0x0040 : Word).getLsbD 6 = true ∧ (0x00BF : Word).getLsbD 6 = false := by decide

theorem witness_JoypadReadAsksItsCallsCallback :
    fullRom.rom.size ≤ 0xA00000 ∧ (padStart 0x40 0x40 []).rom.size ≤ 0xA00000 ∧ Lanes.high.l = false ∧
      Lanes.both.l = true ∧ (padStart 0x40 0x40 []).joypads.p0.data.getLsbD 6 = true ∧
      (padStart 0xBF 0xBF []).joypads.p0.data.getLsbD 6 = false := by decide

theorem witness_CpuTransactionsAreDecoderCalls : readStart.seq = none ∧ readStart.initialised = true := by decide

theorem witness_PeeksAnswerFullWords :
    peekStart.rom.size ≤ 0xA00000 ∧
      ((0x0003FF#24).toNat < peekStart.rom.size ∧ (0x0003FF#24).toNat + 1 < peekStart.cfg.romCapacity) ∧
      0xE00000 ≤ (0xFFFFFF#24).toNat ∧ (peekStart.rom.size ≤ (0x000400#24).toNat ∧ (0x000400#24).toNat < 0xE00000) ∧
      fullRom.rom.size ≤ 0xA00000 ∧ (0x9FFFFF#24).toNat < fullRom.rom.size := by decide

/-- With each value of `INIT_ZEROES_STORE`. -/
theorem witness_InitEstablishesStore :
    allocated.seq = none ∧ allocated.initialised = false ∧ allocated.cfg.initZeroesStore = true ∧
      (let s : State := { allocated with cfg := { Params.standard with initZeroesStore := false } };
        s.seq = none ∧ s.initialised = false ∧ s.cfg.initZeroesStore = false) := by decide

/-- And the transactions of a reset that only reads. -/
theorem witness_ResetOnlyServesCpuTransactions :
    readStart.seq = none ∧ readStart.initialised = true ∧
      ([⟨.read, .both, 0x000000⟩, ⟨.read, .both, 0x000002⟩] : List BusRequest).all (fun q => q.op == .read) = true := by
  decide

/-- An image as large as the capacity, and one byte larger, on a machine of capacity 2; an empty image. -/
theorem witness_InstallRomCopiesOrLogs :
    (let s : State := { writeStart with cfg := { Params.standard with romCapacity := 2 } };
      s.seq = none ∧ s.rom.buffer.wf s.cfg.romCapacity = true ∧
        (2 ≤ ([0xAA, 0xBB] : List Byte).length ∧ 2 ≤ s.cfg.romCapacity) ∧
        (3 ≤ ([0xAA, 0xBB, 0xCC] : List Byte).length ∧ s.cfg.romCapacity < 3) ∧
        (0 ≤ ([] : List Byte).length ∧ 0 ≤ s.cfg.romCapacity)) := by decide

theorem witness_SettersStoreTheirFlag : State.reset.seq = none := by decide
theorem witness_StateSizeAnswersParameter : allocated.seq = none := by decide

theorem witness_BrokenHostDutiesAreRefused :
    ({ State.reset with seq := some (.lines 0 0 false) } : State).seq = some (.lines 0 0 false) ∧
      (State.reset.seq = none ∧ State.reset.initialised = true) ∧
      (allocated.seq = none ∧ allocated.initialised = false) ∧ ([] : List Byte).length < 1 := by decide

/-- A boot with a one-byte image (70_reset_and_hazards.md R323). -/
def bootRequests : List Request :=
  [.host .init, .host (.installRom [0x12] 1), .host (.setPal 1), .host (.setJapanese 0), .host (.setRomWriteable (-1)),
    .host .reset, .host (.runFrame 7 8)]

theorem witness_BootOrderRuns :
    let s : State := { allocated with pending := bootRequests }
    s.seq = none ∧ s.initialised = false ∧ 1 ≤ ([0x12] : List Byte).length ∧ 1 ≤ s.cfg.romCapacity ∧
      s.pending = .host .init :: .host (.installRom [0x12] 1) :: .host (.setPal 1) :: .host (.setJapanese 0) ::
        .host (.setRomWriteable (-1)) :: .host .reset :: .host (.runFrame 7 8) :: [] := by decide

/-- A frame whose trace splits at its level-6 request. -/
theorem witness_FrameCallCounts :
    (frameStart 1440 false []).seq = none ∧ (frameStart 1440 false []).initialised = true ∧
      ([.cpuStep, .vdpVintEnabled true, .cpuInterrupt .level6] : List Event) =
        [.cpuStep, .vdpVintEnabled true] ++ .cpuInterrupt .level6 :: [] := by decide

theorem witness_FrameCallTrace :
    (frameStart 359 true []).seq = none ∧ (frameStart 359 true []).initialised = true := by decide

/-- A query in a frame's record. -/
theorem witness_FrameCallTrace_query :
    Event.query (some 8) .up 0 true ∈ ([.cpuStep, .query (some 8) .up 0 true, .cpuRead .low 0xA10002 0x007E] : List Event) := by
  decide

/-- The first and the last unit of a line with `U = 4`, its end, the end of the last of two lines, and the end of the frame. -/
theorem witness_FrameRowsServeCpuTransactions :
    let at_ : Position → State := fun p => (frameStart 1440 false []).moveTo (some p)
    ((frameStart 1440 false []).seq = none ∧ (frameStart 1440 false []).initialised = true) ∧
      ((at_ (.lines 0 0 false)).seq = some (.lines 0 0 false) ∧ 0 < 4) ∧
      ((at_ (.lines 1 3 false)).seq = some (.lines 1 3 false) ∧ 3 < 4) ∧
      (at_ (.lines 1 3 true)).seq = some (.lines 1 3 true) ∧ (at_ (.lines 0 4 false)).seq = some (.lines 0 4 false) ∧
      (at_ (.lines 1 4 false)).seq = some (.lines 1 4 false) ∧ (at_ .vint).seq = some .vint := by decide

/-- The clocks of G6; the worked example's divisor product, and the largest of the second clause. -/
theorem witness_PalBudgetIsLarger :
    Params.standard.mclkPal = 53203424 ∧ Params.standard.mclkNtsc = 53693175 ∧ 0 < Params.standard.linesPerFrame ∧
      0 < Params.standard.cpuDiv ∧ Params.standard.linesPerFrame * Params.standard.cpuDiv * 2 ≤ 169182 ∧
      0 < 84591 ∧ 0 < 1 ∧ 84591 * 1 * 2 ≤ 169182 := by decide

/-- A step that answers a next state, from a state the invariant admits. -/
theorem witness_StepKeepsInv :
    ({ State.reset with pending := [.host (.setPal 1)] } : State).Inv ∧
      step ({ State.reset with pending := [.host (.setPal 1)] } : State) = .next { State.reset with pal := true } :=
  ⟨⟨rfl, by decide, by decide, by decide, by decide⟩, rfl⟩

theorem witness_OnlyOwnOperationsWriteRomAndFlags :
    exec (.setPal 1) State.reset = .next { State.reset with pal := true } := rfl

theorem witness_DiagnosticsAreAppendOnly :
    exec (.wrRom .both 0x000000 0) writeStart = .next { writeStart with diag := [.romWrite 0x000000] } := rfl

/-- Two machines that differ in the log, the flag and the region. -/
theorem witness_UnreadFieldsDoNotInfluenceSteps :
    AgreeButUnread writeStart
      { writeStart with
        diag := [.oversizedRom 9]
        rom := { writeStart.rom with writeable := false }
        japanese := true } := rfl

theorem witness_TransactionsLogAtMostOnce :
    fullRom.rom.size ≤ 0xA00000 ∧ (0xC00000 : Addr) ≠ 0xC00004 ∧ (0xC00000 : Addr) ≠ 0xC00006 := by decide

theorem witness_FrameKeepsConfiguration :
    (after (.runFrame 7 8) (frameStart 359 false [false, false, false])).isSome = true := by decide

end Sys2Proof.Tests
end

section
/-! PROOFS. The rows that the tables of 30_encoding.md R87 select, as the address map of 20_memory.md R62. -/

namespace Sys2Proof

theorem inSecondaryRam_iff (a : Addr) : inSecondaryRam a = true ↔ 0xA00000 ≤ a.toNat ∧ a.toNat ≤ 0xA01FFF := by
  simp [inSecondaryRam]

theorem inWorkRam_iff (a : Addr) : inWorkRam a = true ↔ 0xE00000 ≤ a.toNat := by
  simp [inWorkRam]

/-- The read table as an address map, first match first; only the secondary-RAM rows look at the lanes. -/
theorem selectRead_descriptor (size : Nat) (lanes : Lanes) (a : Addr) :
    selectRead size (descriptor false false lanes a) =
      if a.toNat < size then .rom
      else if 0xA00000 ≤ a.toNat ∧ a.toNat ≤ 0xA01FFF then (if lanes = .both then .sramW else .sramB)
      else if a = 0xA04000 ∨ a = 0xA04002 then .sound
      else if a = 0xA10002 then .joy0Data
      else if a = 0xA10004 ∨ a = 0xA10006 then .joy12Data
      else if a = 0xA10008 then .joyCtrl .p0
      else if a = 0xA1000A then .joyCtrl .p1
      else if a = 0xA1000C then .joyCtrl .p2
      else if a = 0xA11000 then .memmode
      else if a = 0xA11100 then .busreq
      else if a = 0xA11200 then .z80rst
      else if a = 0xC00000 ∨ a = 0xC00002 then .vdpData
      else if a = 0xC00004 ∨ a = 0xC00006 then .vdpCtrl
      else if a = 0xC00008 then .hv
      else if a = 0xC00010 then .psg
      else if 0xE00000 ≤ a.toNat then .wram
      else .invalid := by
  simp only [selectRead, firstMatch, readTable, TableRow.fits_descriptor]
  cases lanes <;>
    simp [Lanes.h, Lanes.l, Descriptor.flags, Descriptor.addr, addr_and_exact, addr_and_pair, addr_and_secondary,
      addr_and_work, inSecondaryRam_iff, inWorkRam_iff]

/-- The write table as an address map, first match first. -/
theorem selectWrite_descriptor (size : Nat) (lanes : Lanes) (a : Addr) :
    selectWrite size (descriptor false true lanes a) =
      if a.toNat < size then .rom
      else if 0xA00000 ≤ a.toNat ∧ a.toNat ≤ 0xA01FFF then (if lanes = .both then .sramW else .sramB)
      else if a = 0xA04000 ∨ a = 0xA04002 then .sound
      else if a = 0xA10002 then .joyData .p0
      else if a = 0xA10004 then .joyData .p1
      else if a = 0xA10006 then .joyData .p2
      else if a = 0xA10008 then .joyCtrl .p0
      else if a = 0xA1000A then .joyCtrl .p1
      else if a = 0xA1000C then .joyCtrl .p2
      else if a = 0xA11000 then .memmode
      else if a = 0xA11100 then .busreq
      else if a = 0xA11200 then .z80rst
      else if a = 0xC00000 ∨ a = 0xC00002 then .vdpData
      else if a = 0xC00004 ∨ a = 0xC00006 then .vdpCtrl
      else if a = 0xC00008 then .hv
      else if a = 0xC00010 then .psg
      else if 0xE00000 ≤ a.toNat then .wram
      else .invalid := by
  simp only [selectWrite, firstMatch, writeTable, TableRow.fits_descriptor]
  cases lanes <;>
    simp [Lanes.h, Lanes.l, Descriptor.flags, Descriptor.addr, addr_and_exact, addr_and_pair, addr_and_secondary,
      addr_and_work, inSecondaryRam_iff, inWorkRam_iff]

/-- The peek table as an address map, first match first. -/
theorem selectPeek_descriptor (size : Nat) (a : Addr) :
    selectPeek size (descriptor true false .both a) =
      if a.toNat < size then .rom else if 0xE00000 ≤ a.toNat then .wram else .invalid := by
  simp only [selectPeek, firstMatch, peekTable, TableRow.fits_descriptor]
  simp [Lanes.h, Lanes.l, Descriptor.flags, Descriptor.addr, addr_and_work, inWorkRam_iff]

/-! ### The rows of the two RAMs, of a whole image's range (00_scope.md R10) and of the VDP's control port -/

/-- An address not below `0xE00000` is none of the listed single addresses. -/
theorem ne_of_work {a c : Addr} (ha : 0xE00000 ≤ a.toNat) (hc : c.toNat < 0xE00000) : a ≠ c := by
  rintro rfl
  omega

theorem selectRead_work {size : Nat} (lanes : Lanes) {a : Addr} (hs : size ≤ 0xA00000) (ha : 0xE00000 ≤ a.toNat) :
    selectRead size (descriptor false false lanes a) = .wram := by
  have hne : ∀ c : Addr, c.toNat < 0xE00000 → a ≠ c := fun c => ne_of_work ha
  rw [selectRead_descriptor, if_neg (by omega), if_neg (by omega)]
  simp [hne, ha]

theorem selectWrite_work {size : Nat} (lanes : Lanes) {a : Addr} (hs : size ≤ 0xA00000) (ha : 0xE00000 ≤ a.toNat) :
    selectWrite size (descriptor false true lanes a) = .wram := by
  have hne : ∀ c : Addr, c.toNat < 0xE00000 → a ≠ c := fun c => ne_of_work ha
  rw [selectWrite_descriptor, if_neg (by omega), if_neg (by omega)]
  simp [hne, ha]

theorem selectRead_secondary {size : Nat} {lanes : Lanes} {a : Addr} (hs : size ≤ 0xA00000)
    (ha : 0xA00000 ≤ a.toNat ∧ a.toNat ≤ 0xA01FFF) (hl : lanes ≠ .both) :
    selectRead size (descriptor false false lanes a) = .sramB := by
  rw [selectRead_descriptor, if_neg (by omega), if_pos ha, if_neg hl]

theorem selectWrite_secondary {size : Nat} {lanes : Lanes} {a : Addr} (hs : size ≤ 0xA00000)
    (ha : 0xA00000 ≤ a.toNat ∧ a.toNat ≤ 0xA01FFF) (hl : lanes ≠ .both) :
    selectWrite size (descriptor false true lanes a) = .sramB := by
  rw [selectWrite_descriptor, if_neg (by omega), if_pos ha, if_neg hl]

theorem selectWrite_vdpCtrl {size : Nat} (lanes : Lanes) {a : Addr} (hs : size ≤ 0xA00000)
    (ha : a = 0xC00004 ∨ a = 0xC00006) : selectWrite size (descriptor false true lanes a) = .vdpCtrl := by
  have habove : 0xC00004 ≤ a.toNat := by rcases ha with rfl | rfl <;> decide
  rw [selectWrite_descriptor, if_neg (by omega)]
  rcases ha with rfl | rfl <;> simp

end Sys2Proof
end

section
/-! PROOFS. What the peeks inside a control-port write answer and log (43_vdp_peek.md R210 to R214). -/

namespace Sys2Proof.Machine

@[simp] theorem highByte_joinBytes (hi lo : Byte) : highByte (joinBytes hi lo) = hi :=
  BitVec.extractLsb'_append_eq_left

@[simp] theorem lowByte_joinBytes (hi lo : Byte) : lowByte (joinBytes hi lo) = lo :=
  BitVec.extractLsb'_append_eq_right

/-- The word of `p` is what a peek of `p`'s address answers from the store of `s`: the ROM word (its low byte free past
the buffer), the work-RAM word, or 0 (R211 to R213). -/
def IsPeekAnswer (s : State) (p : Addr × Word) : Prop :=
  (p.1.toNat < s.rom.size →
    highByte p.2 = s.rom.buffer.read p.1.toNat ∧
    (p.1.toNat + 1 < s.cfg.romCapacity → lowByte p.2 = s.rom.buffer.read (p.1.toNat + 1))) ∧
  (0xE00000 ≤ p.1.toNat →
    p.2 = s.workRam.read (p.1.toNat % 0x10000) ++ s.workRam.read ((p.1.toNat + 1) % 0x10000)) ∧
  (s.rom.size ≤ p.1.toNat → p.1.toNat < 0xE00000 → p.2 = 0x0000)

/-- The address of `p` is one that no peek row maps (R213). -/
def isUnmappedPeek (romSize : Nat) (p : Addr × Word) : Bool :=
  decide (romSize ≤ p.1.toNat ∧ p.1.toNat < 0xE00000)

/-- A peek's answer depends on the store alone. -/
theorem IsPeekAnswer.of_sameStore {s t : State} (h : SameStore s t) {p : Addr × Word} (ht : IsPeekAnswer t p) :
    IsPeekAnswer s p := by
  unfold IsPeekAnswer at ht ⊢
  rwa [h.rom, h.cfg, h.workRam] at ht

theorem isPeekAnswer_peek (a : Addr) (s : State) (hs : s.rom.size ≤ 0xA00000) : IsPeekAnswer s (a, (peek a s).1) := by
  unfold IsPeekAnswer peek
  rw [selectPeek_descriptor]
  dsimp only
  split
  · next hrom =>
    refine ⟨fun _ => ?_, by omega, by omega⟩
    simp only [peekRow, peekRom, romWord, romLowByte, laneWord, Lanes.h, Lanes.l, if_true, highByte_joinBytes,
      lowByte_joinBytes]
    exact ⟨rfl, fun hlow => by rw [romLow, if_pos hlow]⟩
  · split
    · exact ⟨by omega, fun _ => rfl, by omega⟩
    · exact ⟨by omega, by omega, fun _ _ => rfl⟩

/-- A peek records nothing itself and takes nothing from the script of peeks. -/
theorem peek_trace (a : Addr) (s : State) :
    (peek a s).2.trace = s.trace ∧ (peek a s).2.env.peekWork = s.env.peekWork := peekRow_trace a s _

/-- A peek logs one event where no row maps its address, and nothing elsewhere. -/
theorem peek_diag (a : Addr) (s : State) :
    (peek a s).2.diag =
      s.diag ++ if isUnmappedPeek s.rom.size (a, (peek a s).1) then [.invalidAddress .P a] else [] := by
  simp only [isUnmappedPeek, decide_eq_true_eq]
  unfold peek
  rw [selectPeek_descriptor]
  split
  · obtain ⟨b, e, h⟩ := romWord_spec .both a s
    rw [if_neg (by omega), peekRow, peekRom, h]
    simp
  · split
    · rw [if_neg (by omega)]
      simp [peekRow, peekWram]
    · rw [if_pos (by omega)]
      rfl

/-- Every peek issued is served once, in the order issued, and no other; each answers from the store as it stood, and
those that no row maps log one event each. -/
theorem runPeeks_spec (as : List Addr) : ∀ s : State, s.rom.size ≤ 0xA00000 →
    ∃ ps : List (Addr × Word), ps.map Prod.fst = as ∧
      (runPeeks as s).trace = s.trace ++ ps.map (fun p => .peeked p.1 p.2) ∧
      (runPeeks as s).env.peekWork = s.env.peekWork ∧
      (runPeeks as s).diag =
        s.diag ++ (ps.filter (isUnmappedPeek s.rom.size)).map (fun p => .invalidAddress .P p.1) ∧
      ∀ p ∈ ps, IsPeekAnswer s p := by
  induction as with
  | nil => exact fun s _ => ⟨[], by simp [runPeeks]⟩
  | cons a rest ih =>
    intro s hs
    have hsame : SameStore s ((peek a s).2.emit (.peeked a (peek a s).1)) :=
      (sameStore_peek a s).trans (sameStore_emit _ _)
    have hrom := congrArg Rom.size hsame.rom
    obtain ⟨htrace, hwork⟩ := peek_trace a s
    obtain ⟨ps, has, htr, hpw, hdiag, hans⟩ := ih ((peek a s).2.emit (.peeked a (peek a s).1)) (by rwa [hrom])
    refine ⟨(a, (peek a s).1) :: ps, by rw [List.map_cons, has], htr.trans ?_, hpw.trans hwork, hdiag.trans ?_, ?_⟩
    · simp [htrace]
    · rw [hrom, State.emit_diag, peek_diag, List.filter_cons, List.append_assoc]
      congr 1
      split <;> rfl
    · rintro p (_ | ⟨_, hp⟩)
      · exact isPeekAnswer_peek a s hs
      · exact (hans p hp).of_sameStore hsame

/-- A control-port write: the peeks it issues are the script's next, or free where no script is left. -/
theorem vdpWriteCtrl_spec (v : Word) (lanes : Lanes) (s : State) (hs : s.rom.size ≤ 0xA00000) :
    ∃ ps : List (Addr × Word),
      (∀ work rest, s.env.peekWork = work :: rest → ps.map Prod.fst = work) ∧
      (s.env.peekWork = [] → ps.map Prod.fst = Config.freePeekWork s.env.drawn) ∧
      (vdpWriteCtrl v lanes s).env.peekWork = s.env.peekWork.tail ∧
      (vdpWriteCtrl v lanes s).trace =
        s.trace ++ .vdpWriteCtrl v lanes :: ps.map (fun p => .peeked p.1 p.2) ∧
      (vdpWriteCtrl v lanes s).diag =
        s.diag ++ (ps.filter (isUnmappedPeek s.rom.size)).map (fun p => .invalidAddress .P p.1) ∧
      ∀ p ∈ ps, IsPeekAnswer s p := by
  obtain ⟨work, e, hdraw, hscript, hfree, htail⟩ := drawPeekWork_spec (s.emit (.vdpWriteCtrl v lanes))
  obtain ⟨ps, rfl, htrace, hpw, hdiag, hans⟩ := runPeeks_spec work ((s.emit (.vdpWriteCtrl v lanes)).setEnv e) hs
  have hcall : vdpWriteCtrl v lanes s =
      touchVdp (runPeeks (ps.map Prod.fst) ((s.emit (.vdpWriteCtrl v lanes)).setEnv e)) := by
    simp only [vdpWriteCtrl, hdraw]
  rw [hcall]
  exact ⟨ps, hscript, hfree, hpw.trans htail, htrace.trans (by simp), hdiag, hans⟩

end Sys2Proof.Machine

open Sys2Proof Sys2Proof.Machine

/-- Settles O29: the row by the write table, the peeks by `vdpWriteCtrl_spec`, the store by `sameStore_vdpWriteCtrl`. -/
theorem writeVdpControlServesPeeks : Obligations.WriteVdpControlServesPeeks := by
  intro s lanes a v hs ha
  obtain ⟨ps, hscript, hfree, htail, htrace, hdiag, hans⟩ := vdpWriteCtrl_spec v lanes s hs
  refine ⟨by rw [decode_write, selectWrite_vdpCtrl lanes hs ha]; rfl,
    (vdpWriteCtrl v lanes s).answer .nothing, ps, rfl, ?_, rfl, hscript, hfree, htail, htrace, hdiag, hans⟩
  exact (sameStore_vdpWriteCtrl v lanes s).trans (sameStore_answer _ _)
end

section
/-! PROOFS. `MemRead` and `MemWrite` of one byte (00_scope.md R11) as reads and writes of one cell of a RAM. -/

namespace Sys2Proof.Machine

/-- `A AND 0xFFFFFE` clears the lowest bit. -/
theorem evenAddr_toNat (a : Addr) : (evenAddr a).toNat = a.toNat / 2 * 2 := by
  have hmask : evenAddr a = (a >>> 1) <<< 1 := by
    ext i hi
    interval_cases i <;> simp [evenAddr]
  rw [hmask, BitVec.toNat_shiftLeft, BitVec.toNat_ushiftRight, Nat.shiftLeft_eq, Nat.shiftRight_eq_div_pow]
  omega

/-- A byte address is even and its byte stands in the high lane, or odd and its byte stands in the low lane. -/
theorem byteAddr_cases (a : Addr) :
    (a[0] = false ∧ byteLane a = .high ∧ (evenAddr a).toNat = a.toNat) ∨
      (a[0] = true ∧ byteLane a = .low ∧ (evenAddr a).toNat + 1 = a.toNat) := by
  have hbit : a[0] = decide (a.toNat % 2 = 1) := by simp [BitVec.getElem_eq_testBit_toNat]
  have heven := evenAddr_toNat a
  rcases Nat.mod_two_eq_zero_or_one a.toNat with h | h
  · exact .inl ⟨by simp [hbit, h], by simp [byteLane, hbit, h], by omega⟩
  · exact .inr ⟨by simp [hbit, h], by simp [byteLane, hbit, h], by omega⟩

theorem byteLane_ne_both (a : Addr) : byteLane a ≠ .both := by
  unfold byteLane
  split <;> decide

theorem lowByte_doubled (b : Byte) : lowByte (doubled b) = b := lowByte_joinBytes b b

theorem highByte_doubled (b : Byte) : highByte (doubled b) = b := highByte_joinBytes b b

section
variable {s : State} (hs : s.rom.size ≤ 0xA00000) {a : Addr}
include hs

theorem busRead_work (callback : Option Handle) (lanes : Lanes) (ha : 0xE00000 ≤ a.toNat) :
    busRead callback lanes a s = (workWord lanes a s, s) := by
  rw [busRead, selectRead_work lanes hs ha]
  rfl

theorem busWrite_work (lanes : Lanes) (v : Word) (ha : 0xE00000 ≤ a.toNat) :
    busWrite lanes a v s = wrWram lanes a v s := by
  rw [busWrite, selectWrite_work lanes hs ha]
  rfl

/-- The byte at a work-RAM address. -/
theorem memReadByte_work (callback : Option Handle) (ha : 0xE00000 ≤ a.toNat) :
    (memReadByte callback a s).1 = s.workRam.read (a.toNat % 0x10000) := by
  have heven : 0xE00000 ≤ (evenAddr a).toNat := by rw [evenAddr_toNat]; omega
  simp only [memReadByte, busRead_work hs callback _ heven, workWord, laneWord]
  rcases byteAddr_cases a with ⟨hbit, hlane, haddr⟩ | ⟨hbit, hlane, haddr⟩
  · simp [hbit, hlane, haddr, Lanes.h, workHigh]
  · simp [hbit, hlane, haddr, Lanes.l, workLow]

/-- The byte at a secondary-RAM address. -/
theorem memReadByte_secondary (callback : Option Handle) (ha : 0xA00000 ≤ a.toNat ∧ a.toNat ≤ 0xA01FFF) :
    (memReadByte callback a s).1 = s.secondaryRam.read (a.toNat - 0xA00000) := by
  have heven : 0xA00000 ≤ (evenAddr a).toNat ∧ (evenAddr a).toNat ≤ 0xA01FFF := by rw [evenAddr_toNat]; omega
  simp only [memReadByte, busRead, selectRead_secondary hs heven (byteLane_ne_both a), readRow, rdSramB]
  rcases byteAddr_cases a with ⟨hbit, hlane, haddr⟩ | ⟨hbit, hlane, haddr⟩
  · have hi : secondaryHigh (evenAddr a) = a.toNat - 0xA00000 := by unfold secondaryHigh; omega
    simp [hbit, hlane, hi, Lanes.h]
  · have hi : secondaryLow (evenAddr a) = a.toNat - 0xA00000 := by unfold secondaryLow; omega
    simp [hbit, hlane, hi, Lanes.h]

/-- A byte written at a work-RAM address is one cell stored. -/
theorem memWriteByte_work (b : Byte) (ha : 0xE00000 ≤ a.toNat) :
    memWriteByte a b s = s.writeWork (a.toNat % 0x10000) b := by
  have heven : 0xE00000 ≤ (evenAddr a).toNat := by rw [evenAddr_toNat]; omega
  rw [memWriteByte, busWrite_work hs _ _ heven, wrWram]
  rcases byteAddr_cases a with ⟨-, hlane, haddr⟩ | ⟨-, hlane, haddr⟩
  · simp [hlane, haddr, Lanes.h, Lanes.l, workHigh, highByte_doubled]
  · simp [hlane, haddr, Lanes.h, Lanes.l, workLow, lowByte_doubled]

/-- A byte written at a secondary-RAM address is one cell stored. -/
theorem memWriteByte_secondary (b : Byte) (ha : 0xA00000 ≤ a.toNat ∧ a.toNat ≤ 0xA01FFF) :
    memWriteByte a b s = s.writeSecondary (a.toNat - 0xA00000) b := by
  have heven : 0xA00000 ≤ (evenAddr a).toNat ∧ (evenAddr a).toNat ≤ 0xA01FFF := by rw [evenAddr_toNat]; omega
  rw [memWriteByte, busWrite, selectWrite_secondary hs heven (byteLane_ne_both a), writeRow, wrSramB]
  rcases byteAddr_cases a with ⟨-, hlane, haddr⟩ | ⟨-, hlane, haddr⟩
  · have hi : secondaryHigh (evenAddr a) = a.toNat - 0xA00000 := by unfold secondaryHigh; omega
    simp [hlane, hi, Lanes.h, highByte_doubled]
  · have hi : secondaryLow (evenAddr a) = a.toNat - 0xA00000 := by unfold secondaryLow; omega
    simp [hlane, hi, Lanes.h, lowByte_doubled]

end

/-- The invariant bounds the image: the RAMs' and the ports' addresses are above it (00_scope.md R10). -/
theorem State.Inv.romSize_le {s : State} (h : s.Inv) : s.rom.size ≤ 0xA00000 := by
  have hp := h.params
  simp only [Params.valid, Bool.and_eq_true, decide_eq_true_eq] at hp
  have := h.romSize
  omega

end Sys2Proof.Machine

open Sys2Proof Sys2Proof.Machine

/-- Settles O34: a byte written is one cell of one RAM, and a byte read is one cell. -/
theorem memoryByteReadsBack : Obligations.MemoryByteReadsBack := by
  intro s callback a b hinv ha
  have hs := hinv.romSize_le
  rcases ha with ha | ha
  · have hw : (s.writeWork (a.toNat % 0x10000) b).rom.size ≤ 0xA00000 := hs
    rw [memWriteByte_work hs b ha]
    refine ⟨(memReadByte_work hw callback ha).trans (Memory.read_write_same hinv.work _ b), ?_⟩
    rintro a' (⟨ha', hne⟩ | ⟨hlo, hhi, -⟩)
    · rw [memReadByte_work hw callback ha', memReadByte_work hs callback ha']
      exact Memory.read_write_ne _ b fun h => hne ⟨ha, h⟩
    · rw [memReadByte_secondary hw callback ⟨hlo, hhi⟩, memReadByte_secondary hs callback ⟨hlo, hhi⟩]
      rfl
  · have hw : (s.writeSecondary (a.toNat - 0xA00000) b).rom.size ≤ 0xA00000 := hs
    rw [memWriteByte_secondary hs b ha]
    refine ⟨(memReadByte_secondary hw callback ha).trans (Memory.read_write_same hinv.secondary _ b), ?_⟩
    rintro a' (⟨ha', -⟩ | ⟨hlo, hhi, hne⟩)
    · rw [memReadByte_work hw callback ha', memReadByte_work hs callback ha']
      rfl
    · rw [memReadByte_secondary hw callback ⟨hlo, hhi⟩, memReadByte_secondary hs callback ⟨hlo, hhi⟩]
      refine Memory.read_write_ne _ b fun h => hne (BitVec.eq_of_toNat_eq ?_)
      omega
end

section
/-! PROOFS. The CPU's calls, and a frame as the rows of the position table (44_frame_driver.md R230, R240). -/

namespace Sys2Proof.Machine

/-- A host call that needs `INIT`, made outside a frame and after `INIT`, runs. -/
theorem initialisedCall_of_ready {s : State} (hseq : s.seq = none) (hinit : s.initialised = true)
    (k : State → Host.Outcome State Fault Refusal) : initialisedCall s k = k s := by
  simp [initialisedCall, hostCall, hseq, hinit]

theorem exec_reset {s : State} (hseq : s.seq = none) (hinit : s.initialised = true) :
    exec .reset s = .next ((cpuReset none s).answer .nothing) :=
  initialisedCall_of_ready hseq hinit fun s => answerNothing (cpuReset none s)

theorem exec_runFrame {s : State} (scb iqc : Handle) (hseq : s.seq = none) (hinit : s.initialised = true) :
    exec (.runFrame scb iqc) s = .next (((runFrame ⟨scb, iqc⟩ s).moveTo none).answer .nothing) :=
  initialisedCall_of_ready hseq hinit fun s => answerNothing ((runFrame ⟨scb, iqc⟩ s).moveTo none)

/-! ### The position table, one equation a row -/

section
variable {cb : Callbacks} {U l u : Nat} {s : State}

theorem advance_firstStep (h : s.seq = some (.lines l u false)) (hu : u < U) :
    advance cb U s = stepTo cb (.lines l u true) s := by
  simp [advance, h, hu]

theorem advance_secondStep (h : s.seq = some (.lines l u true)) :
    advance cb U s = stepTo cb (.lines l (u + 1) false) s := by
  simp [advance, h]

theorem advance_endLine (h : s.seq = some (.lines l U false)) : advance cb U s = endLine cb l s := by
  simp [advance, h]

theorem advance_vint (h : s.seq = some .vint) : advance cb U s = endFrame cb s := by
  simp [advance, h]

end

theorem advanceMany_add (cb : Callbacks) (U j k : Nat) :
    ∀ s : State, advanceMany cb U (j + k) s = advanceMany cb U k (advanceMany cb U j s) := by
  induction j with
  | zero => intro s; rw [Nat.zero_add]; rfl
  | succ j ih => intro s; rw [Nat.add_right_comm]; exact ih _

/-! ### Where the parts of a frame leave the position -/

@[simp] theorem stepTo_seq (cb : Callbacks) (p : Position) (s : State) : (stepTo cb p s).seq = some p := rfl

theorem runUnits_seq (cb : Callbacks) (l n : Nat) : ∀ (u : Nat) (s : State), s.seq = some (.lines l u false) →
    (runUnits cb l n u s).seq = some (.lines l (u + n) false) := by
  induction n with
  | zero => exact fun _ _ h => h
  | succ n ih =>
    intro u s _
    rw [show u + (n + 1) = u + 1 + n by omega]
    exact ih (u + 1) _ (stepTo_seq cb _ _)

theorem lineBody_seq (cb : Callbacks) (U l : Nat) (s : State) :
    (lineBody cb U l s).seq = some (lineStart s.cfg.visibleLines (l + 1)) := by
  rw [← (sameConfiguration_runUnits cb l U 0 s).cfg]
  rfl

/-! ### The loops of R230 are the rows of R240 -/

/-- The two rows of each unit left. -/
theorem advanceMany_units (cb : Callbacks) (U l n : Nat) : ∀ (u : Nat) (s : State),
    s.seq = some (.lines l u false) → u + n ≤ U → advanceMany cb U (2 * n) s = runUnits cb l n u s := by
  induction n with
  | zero => exact fun _ _ _ _ => rfl
  | succ n ih =>
    intro u s h hu
    have hunit : advanceMany cb U (2 * (n + 1)) s = advanceMany cb U (2 * n) (advance cb U (advance cb U s)) := rfl
    rw [hunit, advance_firstStep h (by omega), advance_secondStep (stepTo_seq cb _ s)]
    exact ih (u + 1) _ rfl (by omega)

/-- The rows of one line: two for each unit, and its end. -/
theorem advanceMany_lineBody (cb : Callbacks) (U l : Nat) (s : State) (h : s.seq = some (.lines l 0 false)) :
    advanceMany cb U (2 * U + 1) s = lineBody cb U l s := by
  have hseq := runUnits_seq cb l U 0 s h
  rw [Nat.zero_add] at hseq
  rw [advanceMany_add, advanceMany_units cb U l U 0 s h (by omega)]
  exact advance_endLine hseq

/-- The rows of the lines left, and the position after them. -/
theorem advanceMany_runLines (cb : Callbacks) (U n : Nat) : ∀ (l : Nat) (s : State),
    s.seq = some (lineStart s.cfg.visibleLines l) → l + n = s.cfg.visibleLines →
    advanceMany cb U (n * (2 * U + 1)) s = runLines cb U n l s ∧ (runLines cb U n l s).seq = some .vint := by
  induction n with
  | zero =>
    intro l s h hl
    rw [lineStart, if_neg (by omega)] at h
    exact ⟨by rw [Nat.zero_mul]; rfl, h⟩
  | succ n ih =>
    intro l s h hl
    have hcfg := (sameConfiguration_lineBody cb U l s).cfg
    rw [lineStart, if_pos (by omega)] at h
    rw [Nat.succ_mul, Nat.add_comm, advanceMany_add, advanceMany_lineBody cb U l s h]
    exact ih (l + 1) _ (by rw [hcfg]; exact lineBody_seq cb U l s) (by rw [hcfg]; omega)

/-- The frame is the position table run from its first row. -/
theorem advanceMany_startFrame (cb : Callbacks) (s : State) :
    advanceMany cb (units s.cfg s.pal) (s.cfg.visibleLines * (2 * units s.cfg s.pal + 1) + 1) (startFrame s) =
      runFrame cb s := by
  obtain ⟨hlines, hvint⟩ := advanceMany_runLines cb (units s.cfg s.pal) s.cfg.visibleLines 0 (startFrame s) rfl
    (Nat.zero_add _)
  rw [advanceMany_add, hlines]
  exact advance_vint hvint

/-! ### Render and the flag tests take none of the CPU's transactions -/

theorem drawVdpFlag_cpuWork (s : State) : (drawVdpFlag s).2.env.cpuWork = s.env.cpuWork := by
  unfold drawVdpFlag
  split <;> rfl

theorem vdpRender_cpuWork (l : Nat) (cb : Handle) (s : State) :
    (vdpRender l cb s).env.cpuWork = s.env.cpuWork := by
  have hdraw : ∀ t : State, (drawImage t).2.env.cpuWork = t.env.cpuWork := fun t => by
    unfold drawImage
    split <;> rfl
  exact hdraw _

/-- The H-int test: the flag asked, then the level-4 request where it was true. -/
theorem hintTest_spec (cb : Callbacks) (s : State) :
    ∃ hint e v r, r = ((s.emit (.vdpHintEnabled hint)).setVdp v).setEnv e ∧ e.cpuWork = s.env.cpuWork ∧
      hintTest cb s = if hint then cpuInterrupt .level4 (some cb.inputQuery) r else r := by
  obtain ⟨hint, e, v, h⟩ := vdpHintEnabled_spec s
  refine ⟨hint, e, v, _, rfl, ?_, by simp only [hintTest, h]⟩
  have hwork : (vdpHintEnabled s).2.env.cpuWork = s.env.cpuWork := drawVdpFlag_cpuWork s
  rwa [h] at hwork

/-- The V-int test: the flag asked, then the level-6 request where it was true. -/
theorem vintTest_spec (cb : Callbacks) (s : State) :
    ∃ vint e v r, r = ((s.emit (.vdpVintEnabled vint)).setVdp v).setEnv e ∧ e.cpuWork = s.env.cpuWork ∧
      vintTest cb s = if vint then cpuInterrupt .level6 (some cb.inputQuery) r else r := by
  obtain ⟨vint, e, v, h⟩ := vdpVintEnabled_spec s
  refine ⟨vint, e, v, _, rfl, ?_, by simp only [vintTest, h]⟩
  have hwork : (vdpVintEnabled s).2.env.cpuWork = s.env.cpuWork := drawVdpFlag_cpuWork s
  rwa [h] at hwork

end Sys2Proof.Machine

open Sys2Proof Sys2Proof.Machine

/-- Settles O41: serving is the decoder's call and its record, and `RESET` is the CPU call `cpu_reset`. -/
theorem cpuTransactionsAreDecoderCalls : Obligations.CpuTransactionsAreDecoderCalls := by
  intro s callback rest lanes a v
  refine ⟨rfl, ⟨_, _, rfl, rfl⟩, ⟨_, rfl, rfl⟩, fun hseq hinit => ?_⟩
  exact ⟨cpuReset none s, isCpuCall_cpuCall .cpuReset none s, exec_reset hseq hinit⟩

/-- Settles O49: the frame by induction over its lines and units, each row by its equation in the position table. -/
theorem frameRowsServeCpuTransactions : Obligations.FrameRowsServeCpuTransactions := by
  intro s scb iqc U l u
  refine ⟨fun hseq hinit => ?_, fun h hu => ?_, fun h => ?_, fun h => ?_, fun h => ?_⟩
  · rw [exec_runFrame scb iqc hseq hinit, ← advanceMany_startFrame]
    rfl
  · exact ⟨cpuStep (some iqc) s, isCpuCall_cpuCall _ _ s, advance_firstStep h hu⟩
  · exact ⟨cpuStep (some iqc) s, isCpuCall_cpuCall _ _ s, advance_secondStep h⟩
  · obtain ⟨image, e, v, hrender⟩ := vdpRender_spec l scb s
    obtain ⟨hint, e', v', r, hr, hwork, htest⟩ := hintTest_spec ⟨scb, iqc⟩ (vdpRender l scb s)
    refine ⟨image, hint, e', v', r, hintTest ⟨scb, iqc⟩ (vdpRender l scb s), ?_,
      hwork.trans (vdpRender_cpuWork l scb s), ?_, ?_, advance_endLine h⟩
    · simp [hr, hrender, State.emit, State.setVdp, State.setEnv]
    · rintro rfl
      exact htest ▸ isCpuCall_cpuCall _ _ r
    · rintro rfl
      exact htest
  · obtain ⟨vint, e, v, r, hr, hwork, htest⟩ := vintTest_spec ⟨scb, iqc⟩ s
    refine ⟨vint, e, v, r, vintTest ⟨scb, iqc⟩ s, hr, hwork, ?_, ?_, advance_vint h⟩
    · rintro rfl
      exact htest ▸ isCpuCall_cpuCall _ _ r
    · rintro rfl
      exact htest
end

section
/-! PROOFS. The nine updates of the state from which every transaction, CPU call and frame is made, and the relations of
two machines that they keep. Both the noninterference of 10_state.md R23, R31 and R33 and the invariant of R38 are such
relations, so the operations are gone through once. -/

namespace Sys2Proof.Machine

/-! ### What machines that differ in the unread fields alone have in common -/

section
variable {s t : State} (h : AgreeButUnread s t)
include h

theorem AgreeButUnread.cfg : t.cfg = s.cfg := congrArg (·.cfg) h
theorem AgreeButUnread.romBuffer : t.rom.buffer = s.rom.buffer := congrArg (·.rom.buffer) h
theorem AgreeButUnread.romSize : t.rom.size = s.rom.size := congrArg (·.rom.size) h
theorem AgreeButUnread.workRam : t.workRam = s.workRam := congrArg (·.workRam) h
theorem AgreeButUnread.secondaryRam : t.secondaryRam = s.secondaryRam := congrArg (·.secondaryRam) h
theorem AgreeButUnread.joypads : t.joypads = s.joypads := congrArg (·.joypads) h
theorem AgreeButUnread.pal : t.pal = s.pal := congrArg (·.pal) h
theorem AgreeButUnread.seq : t.seq = s.seq := congrArg (·.seq) h
theorem AgreeButUnread.initialised : t.initialised = s.initialised := congrArg (·.initialised) h
theorem AgreeButUnread.pending : t.pending = s.pending := congrArg (·.pending) h
theorem AgreeButUnread.env : t.env = s.env := congrArg (·.env) h

end

theorem AgreeButUnread.refl (s : State) : AgreeButUnread s s := rfl

/-! ### Relations that the updates keep -/

/-- Machines related by `R` agree in all that is read, and stay related when both take the same update; a store is into
an index inside its array (10_state.md R38). -/
structure KeptByUpdates (R : State → State → Prop) : Prop where
  agree          : ∀ {s t}, R s t → AgreeButUnread s t
  raise          : ∀ {s t} (d : Diag), R s t → R (s.raise d) (t.raise d)
  emit           : ∀ {s t} (e : Event), R s t → R (s.emit e) (t.emit e)
  moveTo         : ∀ {s t} (p : Option Position), R s t → R (s.moveTo p) (t.moveTo p)
  answer         : ∀ {s t} (r : Result), R s t → R (s.answer r) (t.answer r)
  setEnv         : ∀ {s t} (e : Env), R s t → R (s.setEnv e) (t.setEnv e)
  setVdp         : ∀ {s t} (v : Vdp), R s t → R (s.setVdp v) (t.setVdp v)
  setPort        : ∀ {s t} (n : Port) (p : JoyPort), R s t → R (s.setPort n p) (t.setPort n p)
  writeWork      : ∀ {s t} {i : Nat} (b : Byte), i < 0x10000 → R s t → R (s.writeWork i b) (t.writeWork i b)
  writeSecondary : ∀ {s t} {i : Nat} (b : Byte), i < 0x2000 → R s t → R (s.writeSecondary i b) (t.writeSecondary i b)

/-- The same answer, and related machines after it. -/
def AnswersAgree {α : Type} (R : State → State → Prop) (p q : α × State) : Prop := q.1 = p.1 ∧ R p.2 q.2

namespace KeptByUpdates

variable {R : State → State → Prop} (k : KeptByUpdates R) {s t : State}
include k

section
variable (h : R s t)
include h

/-! ### Draws and facade calls -/

theorem drew : R s.drew t.drew := by
  unfold State.drew
  rw [(k.agree h).env]
  exact k.setEnv _ h

theorem drawByte : AnswersAgree R (drawByte s) (drawByte t) := by
  unfold Machine.drawByte
  rw [(k.agree h).env]
  exact ⟨rfl, k.drew h⟩

theorem drawQuery : AnswersAgree R (drawQuery s) (drawQuery t) := by
  simp only [Machine.drawQuery, State.drew, (k.agree h).env]
  split <;> exact ⟨rfl, k.setEnv _ h⟩

theorem drawVdpWord : AnswersAgree R (drawVdpWord s) (drawVdpWord t) := by
  simp only [Machine.drawVdpWord, State.drew, (k.agree h).env]
  split <;> exact ⟨rfl, k.setEnv _ h⟩

theorem drawVdpFlag : AnswersAgree R (drawVdpFlag s) (drawVdpFlag t) := by
  simp only [Machine.drawVdpFlag, State.drew, (k.agree h).env]
  split <;> exact ⟨rfl, k.setEnv _ h⟩

theorem drawCpuWork : AnswersAgree R (drawCpuWork s) (drawCpuWork t) := by
  simp only [Machine.drawCpuWork, State.drew, (k.agree h).env]
  split <;> exact ⟨rfl, k.setEnv _ h⟩

theorem drawPeekWork : AnswersAgree R (drawPeekWork s) (drawPeekWork t) := by
  simp only [Machine.drawPeekWork, State.drew, (k.agree h).env]
  split <;> exact ⟨rfl, k.setEnv _ h⟩

theorem drawImage : AnswersAgree R (drawImage s) (drawImage t) := by
  simp only [Machine.drawImage, State.drew, (k.agree h).env]
  split <;> exact ⟨rfl, k.setEnv _ h⟩

theorem touchVdp : R (touchVdp s) (touchVdp t) := by
  unfold Machine.touchVdp
  rw [(k.agree h).env]
  exact k.drew (k.setVdp _ h)

theorem vdpInit : R (vdpInit s) (vdpInit t) := k.touchVdp (k.emit _ h)

theorem vdpWriteData (v : Word) (lanes : Lanes) : R (vdpWriteData v lanes s) (vdpWriteData v lanes t) :=
  k.touchVdp (k.emit _ h)

omit h in
/-- A facade call that hands on a drawn answer records it and replaces the video processor's state. -/
theorem recordAnswer {α : Type} {p q : α × State} (hpq : AnswersAgree R p q) (record : α → Event) :
    AnswersAgree R (p.1, Machine.touchVdp (p.2.emit (record p.1)))
      (q.1, Machine.touchVdp (q.2.emit (record q.1))) := by
  obtain ⟨hanswer, hstate⟩ := hpq
  rw [hanswer]
  exact ⟨rfl, k.touchVdp (k.emit _ hstate)⟩

theorem vdpReadData : AnswersAgree R (vdpReadData s) (vdpReadData t) :=
  k.recordAnswer (k.drawVdpWord h) .vdpReadData

theorem vdpReadCtrl : AnswersAgree R (vdpReadCtrl s) (vdpReadCtrl t) :=
  k.recordAnswer (k.drawVdpWord h) .vdpReadCtrl

theorem vdpHintEnabled : AnswersAgree R (vdpHintEnabled s) (vdpHintEnabled t) :=
  k.recordAnswer (k.drawVdpFlag h) .vdpHintEnabled

theorem vdpVintEnabled : AnswersAgree R (vdpVintEnabled s) (vdpVintEnabled t) :=
  k.recordAnswer (k.drawVdpFlag h) .vdpVintEnabled

theorem vdpRender (l : Nat) (cb : Handle) : R (vdpRender l cb s) (vdpRender l cb t) :=
  (k.recordAnswer (k.drawImage (k.emit (.vdpRender l cb) h)) (.scanline cb l)).2

theorem query (cb : Option Handle) (button : Button) :
    AnswersAgree R (query cb button s) (query cb button t) := by
  obtain ⟨hanswer, hstate⟩ := k.drawQuery h
  simp only [Machine.query, hanswer, (k.agree h).cfg]
  exact ⟨rfl, k.emit _ hstate⟩

end

/-! ### Reads and peeks -/

theorem buttonTerm (cb : Option Handle) (group : List (Button × Nat)) :
    ∀ {s t : State}, R s t → AnswersAgree R (buttonTerm cb group s) (buttonTerm cb group t) := by
  induction group with
  | nil => exact fun h => ⟨rfl, h⟩
  | cons line rest ih =>
    intro s t h
    obtain ⟨hpressed, hstate⟩ := k.query h cb line.1
    obtain ⟨hterm, hend⟩ := ih hstate
    exact ⟨by simp only [Machine.buttonTerm, hpressed, hterm], hend⟩

section
variable (h : R s t)
include h

theorem romWord (lanes : Lanes) (a : Addr) : AnswersAgree R (romWord lanes a s) (romWord lanes a t) := by
  have hlow : AnswersAgree R (romLowByte a s) (romLowByte a t) := by
    unfold romLowByte
    rw [(k.agree h).cfg, (k.agree h).romBuffer]
    split
    · exact ⟨rfl, h⟩
    · exact k.drawByte h
  unfold Machine.romWord
  rw [(k.agree h).romBuffer]
  split
  · obtain ⟨hbyte, hstate⟩ := hlow
    exact ⟨by simp only [hbyte], hstate⟩
  · exact ⟨rfl, h⟩

theorem workWord (lanes : Lanes) (a : Addr) : workWord lanes a t = workWord lanes a s := by
  unfold Machine.workWord
  rw [(k.agree h).workRam]

theorem peekRow (a : Addr) (r : PeekRow) : AnswersAgree R (peekRow a s r) (peekRow a t r) := by
  cases r with
  | rom => exact k.romWord h .both a
  | wram => exact ⟨k.workWord h .both a, h⟩
  | invalid => exact ⟨rfl, k.raise _ h⟩

theorem peek (a : Addr) : AnswersAgree R (peek a s) (peek a t) := by
  unfold Machine.peek
  rw [(k.agree h).romSize]
  exact k.peekRow h a _

theorem joyRead0 (cb : Option Handle) : AnswersAgree R (joyRead0 cb s) (joyRead0 cb t) := by
  obtain ⟨hterm, hstate⟩ := k.buttonTerm cb (selectedGroup s.joypads.p0.data) h
  unfold Machine.joyRead0
  rw [(k.agree h).joypads]
  exact ⟨by simp only [hterm], hstate⟩

theorem readRow (cb : Option Handle) (lanes : Lanes) (a : Addr) (r : ReadRow) :
    AnswersAgree R (readRow cb lanes a s r) (readRow cb lanes a t r) := by
  cases r with
  | rom => exact k.romWord h lanes a
  | sramW | invalid => exact ⟨rfl, k.raise _ h⟩
  | sramB =>
    simp only [Machine.readRow, rdSramB, (k.agree h).secondaryRam]
    split <;> exact ⟨rfl, h⟩
  | joy0Data =>
    simp only [Machine.readRow, rdJoy0Data]
    split
    · obtain ⟨hbyte, hstate⟩ := k.joyRead0 h cb
      exact ⟨by simp only [hbyte], hstate⟩
    · exact ⟨rfl, h⟩
  | joyCtrl n =>
    simp only [Machine.readRow, rdJoyCtrl, joyReadCtrl, (k.agree h).joypads]
    split <;> exact ⟨rfl, h⟩
  | vdpData =>
    obtain ⟨hword, hstate⟩ := k.vdpReadData h
    exact ⟨congrArg (· &&& laneMask lanes) hword, hstate⟩
  | vdpCtrl =>
    obtain ⟨hword, hstate⟩ := k.vdpReadCtrl h
    exact ⟨congrArg (· &&& laneMask lanes) hword, hstate⟩
  | wram => exact ⟨k.workWord h lanes a, h⟩
  | sound | joy12Data | memmode | busreq | z80rst | hv | psg => exact ⟨rfl, h⟩

theorem busRead (cb : Option Handle) (lanes : Lanes) (a : Addr) :
    AnswersAgree R (busRead cb lanes a s) (busRead cb lanes a t) := by
  unfold Machine.busRead
  rw [(k.agree h).romSize]
  exact k.readRow h cb lanes a _

end

/-! ### Writes -/

theorem runPeeks (as : List Addr) : ∀ {s t : State}, R s t → R (runPeeks as s) (runPeeks as t) := by
  induction as with
  | nil => exact id
  | cons a rest ih =>
    intro s t h
    obtain ⟨hword, hstate⟩ := k.peek h a
    simp only [Machine.runPeeks, hword]
    exact ih (k.emit _ hstate)

section
variable (h : R s t)
include h

theorem vdpWriteCtrl (v : Word) (lanes : Lanes) : R (vdpWriteCtrl v lanes s) (vdpWriteCtrl v lanes t) := by
  obtain ⟨hpeeks, hstate⟩ := k.drawPeekWork (k.emit (.vdpWriteCtrl v lanes) h)
  simp only [Machine.vdpWriteCtrl, hpeeks]
  exact k.touchVdp (k.runPeeks _ hstate)

theorem writeRow (lanes : Lanes) (a : Addr) (v : Word) (r : WriteRow) :
    R (writeRow lanes a v s r) (writeRow lanes a v t r) := by
  have hwork (n : Nat) : n % 0x10000 < 0x10000 := Nat.mod_lt _ (by decide)
  have hsecondary (n : Nat) : n % 0x2000 < 0x2000 := Nat.mod_lt _ (by decide)
  cases r with
  | rom | sramW | invalid => exact k.raise _ h
  | sramB =>
    simp only [Machine.writeRow, wrSramB]
    split <;> exact k.writeSecondary _ (hsecondary _) h
  | joyData n =>
    simp only [Machine.writeRow, wrJoyData, joyWriteData, (k.agree h).joypads]
    split
    · exact k.setPort _ _ h
    · exact h
  | joyCtrl n =>
    simp only [Machine.writeRow, wrJoyCtrl, joyWriteCtrl, (k.agree h).joypads]
    split
    · exact k.setPort _ _ h
    · exact h
  | vdpData => exact k.vdpWriteData h v lanes
  | vdpCtrl => exact k.vdpWriteCtrl h v lanes
  | wram =>
    cases lanes with
    | high => exact k.writeWork _ (hwork _) h
    | low => exact k.writeWork _ (hwork _) h
    | both => exact k.writeWork _ (hwork _) (k.writeWork _ (hwork _) h)
  | sound | memmode | busreq | z80rst | hv | psg => exact h

theorem busWrite (lanes : Lanes) (a : Addr) (v : Word) : R (busWrite lanes a v s) (busWrite lanes a v t) := by
  unfold Machine.busWrite
  rw [(k.agree h).romSize]
  exact k.writeRow h lanes a v _

/-! ### CPU calls and frames -/

theorem serve (cb : Option Handle) (q : BusRequest) : R (serve cb q s) (serve cb q t) := by
  unfold Machine.serve
  split
  · obtain ⟨hword, hstate⟩ := k.busRead h cb q.lanes q.addr
    simp only [hword]
    exact k.emit _ hstate
  · exact k.emit _ (k.busWrite h _ _ _)

end

theorem serveAll (cb : Option Handle) (qs : List BusRequest) :
    ∀ {s t : State}, R s t → R (serveAll cb qs s) (serveAll cb qs t) := by
  induction qs with
  | nil => exact id
  | cons q rest ih => exact fun h => ih (k.serve h cb q)

section
variable (h : R s t)
include h

theorem cpuCall (e : Event) (cb : Option Handle) : R (cpuCall e cb s) (cpuCall e cb t) := by
  obtain ⟨hwork, hstate⟩ := k.drawCpuWork (k.emit e h)
  simp only [Machine.cpuCall, hwork]
  exact k.serveAll cb _ hstate

theorem stepTo (cb : Callbacks) (p : Position) : R (stepTo cb p s) (stepTo cb p t) :=
  k.moveTo _ (k.cpuCall h _ _)

theorem hintTest (cb : Callbacks) : R (hintTest cb s) (hintTest cb t) := by
  obtain ⟨hflag, hstate⟩ := k.vdpHintEnabled h
  simp only [Machine.hintTest, hflag]
  split
  · exact k.cpuCall hstate _ _
  · exact hstate

theorem vintTest (cb : Callbacks) : R (vintTest cb s) (vintTest cb t) := by
  obtain ⟨hflag, hstate⟩ := k.vdpVintEnabled h
  simp only [Machine.vintTest, hflag]
  split
  · exact k.cpuCall hstate _ _
  · exact hstate

theorem endLine (cb : Callbacks) (l : Nat) : R (endLine cb l s) (endLine cb l t) := by
  unfold Machine.endLine
  rw [(k.agree h).cfg]
  exact k.moveTo _ (k.hintTest (k.vdpRender h l cb.scanline) cb)

end

theorem runUnits (cb : Callbacks) (l n : Nat) :
    ∀ (u : Nat) {s t : State}, R s t → R (runUnits cb l n u s) (runUnits cb l n u t) := by
  induction n with
  | zero => exact fun _ _ _ h => h
  | succ n ih => exact fun u _ _ h => ih (u + 1) (k.stepTo (k.stepTo h cb _) cb _)

theorem runLines (cb : Callbacks) (U n : Nat) :
    ∀ (l : Nat) {s t : State}, R s t → R (runLines cb U n l s) (runLines cb U n l t) := by
  induction n with
  | zero => exact fun _ _ _ h => h
  | succ n ih => exact fun l _ _ h => ih (l + 1) (k.endLine (k.runUnits cb l U 0 h) cb l)

theorem runFrame (h : R s t) (cb : Callbacks) : R (runFrame cb s) (runFrame cb t) := by
  unfold Machine.runFrame startFrame
  rw [(k.agree h).cfg, (k.agree h).pal]
  exact k.moveTo _ (k.vintTest (k.runLines cb _ _ 0 (k.moveTo _ h)) cb)

end KeptByUpdates
end Sys2Proof.Machine
end

section
/-! PROOFS. What one instruction can do to the machine (10_state.md R22, R23, R30, R31, R33, R38): the five operations
that write the configuration, and everything else. -/

namespace Sys2Proof

/-- The instructions that write the ROM, a flag or the lifecycle (45_lifecycle.md R260 to R264, R320). -/
def Instr.configures : Instr → Bool
  | .init | .installRom _ _ | .setRomWriteable _ | .setPal _ | .setJapanese _ => true
  | _ => false

/-- Every instruction is a row of a table of 30_encoding.md R87 or a host operation. -/
theorem Instr.row_cases (i : Instr) :
    (∃ lanes a r, i = .ofRead lanes a r) ∨ (∃ lanes a v r, i = .ofWrite lanes a v r) ∨ (∃ a r, i = .ofPeek a r) ∨
      ∃ op : HostOp, i = op.instr := by
  cases i with
  | rdRom lanes a => exact .inl ⟨lanes, a, .rom, rfl⟩
  | rdSramW a => exact .inl ⟨.both, a, .sramW, rfl⟩
  | rdSramB lanes a => exact .inl ⟨lanes, a, .sramB, rfl⟩
  | rdSound lanes a => exact .inl ⟨lanes, a, .sound, rfl⟩
  | rdJoy0Data lanes => exact .inl ⟨lanes, 0xA10002, .joy0Data, rfl⟩
  | rdJoy12Data lanes a => exact .inl ⟨lanes, a, .joy12Data, rfl⟩
  | rdJoyCtrl0 lanes => exact .inl ⟨lanes, 0xA10008, .joyCtrl .p0, rfl⟩
  | rdJoyCtrl1 lanes => exact .inl ⟨lanes, 0xA1000A, .joyCtrl .p1, rfl⟩
  | rdJoyCtrl2 lanes => exact .inl ⟨lanes, 0xA1000C, .joyCtrl .p2, rfl⟩
  | rdMemmode lanes => exact .inl ⟨lanes, 0xA11000, .memmode, rfl⟩
  | rdBusreq lanes => exact .inl ⟨lanes, 0xA11100, .busreq, rfl⟩
  | rdZ80rst lanes => exact .inl ⟨lanes, 0xA11200, .z80rst, rfl⟩
  | rdVdpData lanes a => exact .inl ⟨lanes, a, .vdpData, rfl⟩
  | rdVdpCtrl lanes a => exact .inl ⟨lanes, a, .vdpCtrl, rfl⟩
  | rdHv lanes => exact .inl ⟨lanes, 0xC00008, .hv, rfl⟩
  | rdPsg lanes => exact .inl ⟨lanes, 0xC00010, .psg, rfl⟩
  | rdWram lanes a => exact .inl ⟨lanes, a, .wram, rfl⟩
  | rdInvalid lanes a => exact .inl ⟨lanes, a, .invalid, rfl⟩
  | wrRom lanes a v => exact .inr (.inl ⟨lanes, a, v, .rom, rfl⟩)
  | wrSramW a v => exact .inr (.inl ⟨.both, a, v, .sramW, rfl⟩)
  | wrSramB lanes a v => exact .inr (.inl ⟨lanes, a, v, .sramB, rfl⟩)
  | wrSound lanes a v => exact .inr (.inl ⟨lanes, a, v, .sound, rfl⟩)
  | wrJoyData0 lanes v => exact .inr (.inl ⟨lanes, 0xA10002, v, .joyData .p0, rfl⟩)
  | wrJoyData1 lanes v => exact .inr (.inl ⟨lanes, 0xA10004, v, .joyData .p1, rfl⟩)
  | wrJoyData2 lanes v => exact .inr (.inl ⟨lanes, 0xA10006, v, .joyData .p2, rfl⟩)
  | wrJoyCtrl0 lanes v => exact .inr (.inl ⟨lanes, 0xA10008, v, .joyCtrl .p0, rfl⟩)
  | wrJoyCtrl1 lanes v => exact .inr (.inl ⟨lanes, 0xA1000A, v, .joyCtrl .p1, rfl⟩)
  | wrJoyCtrl2 lanes v => exact .inr (.inl ⟨lanes, 0xA1000C, v, .joyCtrl .p2, rfl⟩)
  | wrMemmode lanes v => exact .inr (.inl ⟨lanes, 0xA11000, v, .memmode, rfl⟩)
  | wrBusreq lanes v => exact .inr (.inl ⟨lanes, 0xA11100, v, .busreq, rfl⟩)
  | wrZ80rst lanes v => exact .inr (.inl ⟨lanes, 0xA11200, v, .z80rst, rfl⟩)
  | wrVdpData lanes a v => exact .inr (.inl ⟨lanes, a, v, .vdpData, rfl⟩)
  | wrVdpCtrl lanes a v => exact .inr (.inl ⟨lanes, a, v, .vdpCtrl, rfl⟩)
  | wrHv lanes v => exact .inr (.inl ⟨lanes, 0xC00008, v, .hv, rfl⟩)
  | wrPsg lanes v => exact .inr (.inl ⟨lanes, 0xC00010, v, .psg, rfl⟩)
  | wrWram lanes a v => exact .inr (.inl ⟨lanes, a, v, .wram, rfl⟩)
  | wrInvalid lanes a v => exact .inr (.inl ⟨lanes, a, v, .invalid, rfl⟩)
  | peekRom a => exact .inr (.inr (.inl ⟨a, .rom, rfl⟩))
  | peekWram a => exact .inr (.inr (.inl ⟨a, .wram, rfl⟩))
  | peekInvalid a => exact .inr (.inr (.inl ⟨a, .invalid, rfl⟩))
  | init => exact .inr (.inr (.inr ⟨.init, rfl⟩))
  | reset => exact .inr (.inr (.inr ⟨.reset, rfl⟩))
  | installRom bytes length => exact .inr (.inr (.inr ⟨.installRom bytes length, rfl⟩))
  | setRomWriteable b => exact .inr (.inr (.inr ⟨.setRomWriteable b, rfl⟩))
  | setPal b => exact .inr (.inr (.inr ⟨.setPal b, rfl⟩))
  | setJapanese b => exact .inr (.inr (.inr ⟨.setJapanese b, rfl⟩))
  | runFrame scb iqc => exact .inr (.inr (.inr ⟨.runFrame scb iqc, rfl⟩))
  | stateSize => exact .inr (.inr (.inr ⟨.stateSize, rfl⟩))

theorem Instr.configures_cases {i : Instr} (h : i.configures = true) :
    i = .init ∨ (∃ bytes length, i = .installRom bytes length) ∨ (∃ b, i = .setRomWriteable b) ∨ (∃ b, i = .setPal b) ∨
      ∃ b, i = .setJapanese b := by
  cases i with
  | init => exact .inl rfl
  | installRom bytes length => exact .inr (.inl ⟨bytes, length, rfl⟩)
  | setRomWriteable b => exact .inr (.inr (.inl ⟨b, rfl⟩))
  | setPal b => exact .inr (.inr (.inr (.inl ⟨b, rfl⟩)))
  | setJapanese b => exact .inr (.inr (.inr (.inr ⟨b, rfl⟩)))
  | _ => cases h

end Sys2Proof

namespace Sys2Proof.Machine

theorem exec_ofRead (lanes : Lanes) (a : Addr) (s : State) (r : ReadRow) :
    exec (.ofRead lanes a r) s = answerWord (readRow none lanes a s r) := by
  cases r with
  | joyCtrl n =>
    cases n <;>
      simp only [Instr.ofRead, exec, execRdJoyCtrl0, execRdJoyCtrl1, execRdJoyCtrl2, readRow, port_of_address]
  | _ => rfl

theorem exec_ofWrite (lanes : Lanes) (a : Addr) (v : Word) (s : State) (r : WriteRow) :
    exec (.ofWrite lanes a v r) s = answerNothing (writeRow lanes a v s r) := by
  cases r with
  | joyData n =>
    cases n <;>
      simp only [Instr.ofWrite, exec, execWrJoyData0, execWrJoyData1, execWrJoyData2, writeRow, port_of_address]
  | joyCtrl n =>
    cases n <;>
      simp only [Instr.ofWrite, exec, execWrJoyCtrl0, execWrJoyCtrl1, execWrJoyCtrl2, writeRow, port_of_address]
  | _ => rfl

theorem exec_ofPeek (a : Addr) (s : State) (r : PeekRow) :
    exec (.ofPeek a r) s = answerWord (peekRow a s r) := by
  cases r <;> rfl

/-! ### A relation that the updates keep is kept by every instruction that writes no configuration -/

namespace KeptByUpdates

section
variable {R : State → State → Prop} (k : KeptByUpdates R) {s t : State}
include k

theorem answerWord {p q : Word × State} (h : AnswersAgree R p q) : OutcomesAgree R (answerWord p) (answerWord q) := by
  obtain ⟨hword, hstate⟩ := h
  rw [Machine.answerWord, Machine.answerWord, hword]
  exact k.answer _ hstate

theorem answerNothing (h : R s t) : OutcomesAgree R (answerNothing s) (answerNothing t) := k.answer _ h

theorem hostCall (h : R s t) {c : State → Host.Outcome State Fault Refusal} (hc : OutcomesAgree R (c s) (c t)) :
    OutcomesAgree R (hostCall s c) (hostCall t c) := by
  unfold Machine.hostCall
  rw [(k.agree h).seq]
  split
  · rfl
  · exact hc

theorem initialisedCall (h : R s t) {c : State → Host.Outcome State Fault Refusal}
    (hc : OutcomesAgree R (c s) (c t)) : OutcomesAgree R (initialisedCall s c) (initialisedCall t c) := by
  refine k.hostCall h ?_
  rw [(k.agree h).initialised]
  split
  · exact hc
  · rfl

theorem exec {i : Instr} (hi : i.configures = false) (h : R s t) : OutcomesAgree R (exec i s) (exec i t) := by
  obtain ⟨lanes, a, r, rfl⟩ | ⟨lanes, a, v, r, rfl⟩ | ⟨a, r, rfl⟩ | ⟨op, rfl⟩ := i.row_cases
  · rw [exec_ofRead, exec_ofRead]
    exact k.answerWord (k.readRow h none lanes a r)
  · rw [exec_ofWrite, exec_ofWrite]
    exact k.answerNothing (k.writeRow h lanes a v r)
  · rw [exec_ofPeek, exec_ofPeek]
    exact k.answerWord (k.peekRow h a r)
  · cases op with
    | reset =>
      change OutcomesAgree R (execReset s) (execReset t)
      exact k.initialisedCall h (k.answerNothing (k.cpuCall h _ _))
    | runFrame scb iqc =>
      change OutcomesAgree R (execRunFrame scb iqc s) (execRunFrame scb iqc t)
      exact k.initialisedCall h (k.answerNothing (k.moveTo _ (k.runFrame h ⟨scb, iqc⟩)))
    | stateSize =>
      change OutcomesAgree R (execStateSize s) (execStateSize t)
      refine k.hostCall h ?_
      rw [(k.agree h).cfg]
      exact k.answer _ h
    | init | installRom | setRomWriteable | setPal | setJapanese => cases hi

end

end KeptByUpdates

/-! ### Noninterference: the unread fields (10_state.md R23, R31, R33) -/

/-- The machine with other values in the three fields that no rule reads. -/
def State.withUnread (s : State) (log : List Diag) (writeable japanese : Bool) : State :=
  { s with diag := log, rom := { s.rom with writeable := writeable }, japanese := japanese }

/-- An update agrees on agreeing machines if it does on every machine with other values in those fields. -/
theorem AgreeButUnread.update {s t : State} (h : AgreeButUnread s t) (f : State → State)
    (hf : ∀ log w j, AgreeButUnread (f s) (f (s.withUnread log w j))) : AgreeButUnread (f s) (f t) := by
  have ht : t = s.withUnread t.diag t.rom.writeable t.japanese := h
  rw [ht]
  exact hf _ _ _

theorem agreeButUnread_keptByUpdates : KeptByUpdates AgreeButUnread where
  agree h := h
  raise d h := h.update (·.raise d) fun _ _ _ => rfl
  emit e h := h.update (·.emit e) fun _ _ _ => rfl
  moveTo p h := h.update (·.moveTo p) fun _ _ _ => rfl
  answer r h := h.update (·.answer r) fun _ _ _ => rfl
  setEnv e h := h.update (·.setEnv e) fun _ _ _ => rfl
  setVdp v h := h.update (·.setVdp v) fun _ _ _ => rfl
  setPort n p h := h.update (·.setPort n p) fun _ _ _ => rfl
  writeWork b _ h := h.update (·.writeWork _ b) fun _ _ _ => rfl
  writeSecondary b _ h := h.update (·.writeSecondary _ b) fun _ _ _ => rfl

section
variable {s t : State} (h : AgreeButUnread s t)
include h

theorem AgreeButUnread.initialise : AgreeButUnread (initialise s) (initialise t) := by
  have hv : AgreeButUnread (vdpInit s) (vdpInit t) := agreeButUnread_keptByUpdates.vdpInit h
  unfold Machine.initialise
  dsimp only
  rw [hv.cfg]
  split
  · exact hv.update (fun u => { zeroStore u with diag := [], initialised := true }) fun _ _ _ => rfl
  · exact hv.update (fun u => { drawStore u with diag := [], initialised := true }) fun _ _ _ => rfl

theorem AgreeButUnread.installRom (bytes : List Byte) (length : Nat) :
    AgreeButUnread (installRom bytes length s) (installRom bytes length t) := by
  unfold Machine.installRom
  rw [h.cfg]
  split
  · exact agreeButUnread_keptByUpdates.raise _ h
  · exact h.update
      (fun u => u.setRom { u.rom with buffer := u.rom.buffer.copyIn 0 (bytes.take length), size := length })
      fun _ _ _ => rfl

/-- No instruction reads the log, `S.rom.writeable` or `S.japanese`. -/
theorem AgreeButUnread.exec (i : Instr) : OutcomesAgree AgreeButUnread (exec i s) (exec i t) := by
  have k := agreeButUnread_keptByUpdates
  cases hi : i.configures with
  | false => exact k.exec hi h
  | true =>
    obtain rfl | ⟨bytes, length, rfl⟩ | ⟨b, rfl⟩ | ⟨b, rfl⟩ | ⟨b, rfl⟩ := Instr.configures_cases hi
    · change OutcomesAgree AgreeButUnread (execInit s) (execInit t)
      refine k.hostCall h ?_
      rw [h.initialised]
      split
      · rfl
      · exact k.answerNothing h.initialise
    · change OutcomesAgree AgreeButUnread (execInstallRom bytes length s) (execInstallRom bytes length t)
      refine k.hostCall h ?_
      split
      · rfl
      · exact k.answerNothing (h.installRom bytes length)
    · change OutcomesAgree AgreeButUnread (execSetRomWriteable b s) (execSetRomWriteable b t)
      exact k.hostCall h <| k.answerNothing <|
        h.update (fun u => u.setRom { u.rom with writeable := hostFlag b }) fun _ _ _ => rfl
    · change OutcomesAgree AgreeButUnread (execSetPal b s) (execSetPal b t)
      exact k.hostCall h <| k.answerNothing <| h.update (fun u => { u with pal := hostFlag b }) fun _ _ _ => rfl
    · change OutcomesAgree AgreeButUnread (execSetJapanese b s) (execSetJapanese b t)
      exact k.hostCall h <| k.answerNothing <| h.update (fun u => { u with japanese := hostFlag b }) fun _ _ _ => rfl

end

/-! ### What every instruction that writes no configuration keeps -/

/-- What serving leaves of the machine it began from: the configuration, the canonical form of both RAMs, and the log
but for events appended. -/
structure ServedFrom (s t : State) : Prop where
  configuration : SameConfiguration s t
  work          : s.workRam.wf 0x10000 = true → t.workRam.wf 0x10000 = true
  secondary     : s.secondaryRam.wf 0x2000 = true → t.secondaryRam.wf 0x2000 = true
  log           : s.diag <+: t.diag

theorem ServedFrom.trans {s t u : State} (h : ServedFrom s t) (k : ServedFrom t u) : ServedFrom s u :=
  ⟨h.configuration.trans k.configuration, k.work ∘ h.work, k.secondary ∘ h.secondary, h.log.trans k.log⟩

theorem SameStore.servedFrom {s t : State} (h : SameStore s t) (hlog : s.diag <+: t.diag) : ServedFrom s t :=
  ⟨h.configuration, by rw [h.workRam]; exact id, by rw [h.secondaryRam]; exact id, hlog⟩

theorem ServedFrom.refl (s : State) : ServedFrom s s := (SameStore.refl s).servedFrom List.prefix_rfl

/-- The invariant of 10_state.md R38 is kept by what keeps the configuration and the arrays' form. -/
theorem ServedFrom.inv {s t : State} (h : ServedFrom s t) (hs : s.Inv) : t.Inv where
  params := by rw [h.configuration.cfg]; exact hs.params
  romSize := by rw [h.configuration.cfg, h.configuration.rom]; exact hs.romSize
  romBuffer := by rw [h.configuration.cfg, h.configuration.rom]; exact hs.romBuffer
  work := h.work hs.work
  secondary := h.secondary hs.secondary

/-- One machine compared with itself: a relation kept is a property kept. -/
theorem servedFrom_keptByUpdates (s₀ : State) : KeptByUpdates fun s t => t = s ∧ ServedFrom s₀ s where
  agree h := h.1 ▸ .refl _
  raise d h := ⟨congrArg (·.raise d) h.1, h.2.trans ((sameStore_raise _ d).servedFrom (List.prefix_append _ _))⟩
  emit e h := ⟨congrArg (·.emit e) h.1, h.2.trans ((sameStore_emit _ e).servedFrom List.prefix_rfl)⟩
  moveTo p h :=
    ⟨congrArg (·.moveTo p) h.1, h.2.trans ⟨sameConfiguration_moveTo _ p, id, id, List.prefix_rfl⟩⟩
  answer r h := ⟨congrArg (·.answer r) h.1, h.2.trans ((sameStore_answer _ r).servedFrom List.prefix_rfl)⟩
  setEnv e h := ⟨congrArg (·.setEnv e) h.1, h.2.trans ((sameStore_setEnv _ e).servedFrom List.prefix_rfl)⟩
  setVdp v h :=
    ⟨congrArg (·.setVdp v) h.1, h.2.trans ⟨⟨rfl, rfl, rfl, rfl, rfl, rfl⟩, id, id, List.prefix_rfl⟩⟩
  setPort n p h :=
    ⟨congrArg (·.setPort n p) h.1, h.2.trans ⟨⟨rfl, rfl, rfl, rfl, rfl, rfl⟩, id, id, List.prefix_rfl⟩⟩
  writeWork {_ _ i} b hi h :=
    ⟨congrArg (·.writeWork i b) h.1,
      h.2.trans ⟨⟨rfl, rfl, rfl, rfl, rfl, rfl⟩, (Memory.write_wf · hi b), id, List.prefix_rfl⟩⟩
  writeSecondary {_ _ i} b hi h :=
    ⟨congrArg (·.writeSecondary i b) h.1,
      h.2.trans ⟨⟨rfl, rfl, rfl, rfl, rfl, rfl⟩, id, (Memory.write_wf · hi b), List.prefix_rfl⟩⟩

theorem servedFrom_exec {i : Instr} {s t : State} (hi : i.configures = false) (h : exec i s = .next t) :
    ServedFrom s t := by
  have hagree := (servedFrom_keptByUpdates s).exec hi ⟨rfl, .refl s⟩
  rw [h] at hagree
  exact hagree.2

/-! ### What the operations that write the configuration do -/

/-- A host call that answers a next state was made outside a frame, and ran. -/
theorem eq_next_of_hostCall {s t : State} {c : State → Host.Outcome State Fault Refusal}
    (h : hostCall s c = .next t) : c s = .next t := by
  unfold hostCall at h
  split at h
  · cases h
  · exact h

/-- What an instruction can do to the machine, whole. -/
theorem exec_next {i : Instr} {s t : State} (h : exec i s = .next t) :
    ServedFrom s t ∨
    (i = .init ∧ t = (initialise s).answer .nothing) ∨
    (∃ bytes length, i = .installRom bytes length ∧ t = (installRom bytes length s).answer .nothing) ∨
    (∃ b, i = .setRomWriteable b ∧ t = (s.setRom { s.rom with writeable := hostFlag b }).answer .nothing) ∨
    (∃ b, i = .setPal b ∧ t = { s with pal := hostFlag b }.answer .nothing) ∨
    ∃ b, i = .setJapanese b ∧ t = { s with japanese := hostFlag b }.answer .nothing := by
  cases hi : i.configures with
  | false => exact .inl (servedFrom_exec hi h)
  | true =>
    refine .inr ?_
    obtain rfl | ⟨bytes, length, rfl⟩ | ⟨b, rfl⟩ | ⟨b, rfl⟩ | ⟨b, rfl⟩ := Instr.configures_cases hi
    · have hrun := eq_next_of_hostCall (show execInit s = .next t from h)
      split at hrun
      · cases hrun
      · cases hrun
        exact .inl ⟨rfl, rfl⟩
    · have hrun := eq_next_of_hostCall (show execInstallRom bytes length s = .next t from h)
      split at hrun
      · cases hrun
      · cases hrun
        exact .inr (.inl ⟨bytes, length, rfl, rfl⟩)
    · cases eq_next_of_hostCall (show execSetRomWriteable b s = .next t from h)
      exact .inr (.inr (.inl ⟨b, rfl, rfl⟩))
    · cases eq_next_of_hostCall (show execSetPal b s = .next t from h)
      exact .inr (.inr (.inr (.inl ⟨b, rfl, rfl⟩)))
    · cases eq_next_of_hostCall (show execSetJapanese b s = .next t from h)
      exact .inr (.inr (.inr (.inr ⟨b, rfl, rfl⟩)))

theorem initialise_cfg (s : State) : (initialise s).cfg = s.cfg := by
  unfold initialise
  dsimp only
  split <;> rfl

/-- `INIT` meets the invariant whatever `INIT_ZEROES_STORE` is: its arrays list nothing, and a drawn size keeps the
bound of 10_state.md R22. -/
theorem State.Inv.initialise {s : State} (h : s.Inv) : (initialise s).Inv := by
  unfold Machine.initialise
  dsimp only
  split
  · exact ⟨h.params, Nat.zero_le _, Memory.wf_nil _ _, Memory.wf_nil _ _, Memory.wf_nil _ _⟩
  · exact ⟨h.params, Nat.le_of_lt_succ (Nat.mod_lt _ (Nat.succ_pos _)), Memory.wf_nil _ _, Memory.wf_nil _ _,
      Memory.wf_nil _ _⟩

theorem State.Inv.installRom {s : State} (h : s.Inv) (bytes : List Byte) (length : Nat) :
    (installRom bytes length s).Inv := by
  unfold Machine.installRom
  split
  · exact ⟨h.params, h.romSize, h.romBuffer, h.work, h.secondary⟩
  · next hfits =>
    have hcopied : (bytes.take length).length ≤ length := List.length_take_le _ _
    have hsize : length ≤ s.cfg.romCapacity := Nat.le_of_not_lt hfits
    have hbuffer := Memory.copyIn_wf (i := 0) (bytes.take length) h.romBuffer (by omega)
    exact ⟨h.params, hsize, hbuffer, h.work, h.secondary⟩

theorem State.Inv.exec {i : Instr} {s t : State} (hs : s.Inv) (h : exec i s = .next t) : t.Inv := by
  obtain hserved | ⟨-, rfl⟩ | ⟨bytes, length, -, rfl⟩ | ⟨b, -, rfl⟩ | ⟨b, -, rfl⟩ | ⟨b, -, rfl⟩ := exec_next h
  · exact hserved.inv hs
  · exact ((sameStore_answer _ _).servedFrom List.prefix_rfl).inv hs.initialise
  · exact ((sameStore_answer _ _).servedFrom List.prefix_rfl).inv (hs.installRom bytes length)
  · exact ⟨hs.params, hs.romSize, hs.romBuffer, hs.work, hs.secondary⟩
  · exact ⟨hs.params, hs.romSize, hs.romBuffer, hs.work, hs.secondary⟩
  · exact ⟨hs.params, hs.romSize, hs.romBuffer, hs.work, hs.secondary⟩

end Sys2Proof.Machine

open Sys2Proof Sys2Proof.Machine

/-- Settles O55: a step performs one instruction, and each keeps the invariant. -/
theorem stepKeepsInv : Obligations.StepKeepsInv := by
  intro s t hs h
  unfold step at h
  split at h
  · cases h
  · split at h
    · cases h
    · next rest _ _ _ _ =>
      have hrest : { s with pending := rest }.Inv := ⟨hs.params, hs.romSize, hs.romBuffer, hs.work, hs.secondary⟩
      exact hrest.exec h

/-- Settles O57: the request and its decoding read neither field, and no instruction does. -/
theorem unreadFieldsDoNotInfluenceSteps : Obligations.UnreadFieldsDoNotInfluenceSteps := by
  intro s t h
  unfold step
  rw [h.pending, h.romSize]
  split
  · rfl
  · next r rest _ =>
    split
    · rfl
    · exact (h.update (fun u => { u with pending := rest }) fun _ _ _ => rfl).exec _

/-- Settles O56: by the cases of `exec_next`. -/
theorem onlyOwnOperationsWriteRomAndFlags : Obligations.OnlyOwnOperationsWriteRomAndFlags := by
  intro i s t h
  obtain hserved | ⟨rfl, rfl⟩ | ⟨bytes, length, rfl, rfl⟩ | ⟨b, rfl, rfl⟩ | ⟨b, rfl, rfl⟩ | ⟨b, rfl, rfl⟩ := exec_next h
  · obtain ⟨hcfg, hrom, hpal, hjapanese, -, -⟩ := hserved.configuration
    simp [hcfg, hrom, hpal, hjapanese]
  · simp [initialise_cfg]
  · unfold installRom
    split <;> simp
  · simp
  · simp
  · simp

/-- Settles O58: by the cases of `exec_next`; an oversized ROM is the one event a host operation logs itself. -/
theorem diagnosticsAreAppendOnly : Obligations.DiagnosticsAreAppendOnly := by
  intro i s t h
  obtain hserved | ⟨rfl, -⟩ | ⟨bytes, length, -, rfl⟩ | ⟨b, -, rfl⟩ | ⟨b, -, rfl⟩ | ⟨b, -, rfl⟩ := exec_next h
  · obtain ⟨ds, hds⟩ := hserved.log
    exact .inr ⟨ds, hds.symm⟩
  · exact .inl rfl
  · refine .inr ?_
    unfold installRom
    split
    · exact ⟨_, rfl⟩
    · exact ⟨[], by simp⟩
  · exact .inr ⟨[], by simp⟩
  · exact .inr ⟨[], by simp⟩
  · exact .inr ⟨[], by simp⟩

/-- Settles O53: `State.reset` lists no byte, and every index of such an array reads 0. -/
theorem resetStoreIsR39 : Obligations.ResetStoreIsR39 := by
  refine ⟨Memory.read_zeroes, rfl, rfl, Memory.read_zeroes, Memory.read_zeroes, fun n => ?_, rfl, rfl, rfl⟩
  cases n <;> rfl

/-- Settles O54: the parameters by evaluation, the arrays by `reset_memories_wf`. -/
theorem resetMeetsInv : Obligations.ResetMeetsInv := by
  obtain ⟨hrom, hwork, hsecondary⟩ := reset_memories_wf
  exact ⟨by decide, Nat.zero_le _, hrom, hwork, hsecondary⟩
end

section
/-! PROOFS. A word in work RAM: what a two-lane write stores, a two-lane read and a peek answer, at every mirror
(20_memory.md R52, R63, R72), and between the transactions of one CPU call (R59, R67, R70). -/

namespace Sys2Proof.Machine

/-- The two lanes of a word, joined again. -/
theorem joinBytes_highByte_lowByte (w : Word) : joinBytes (highByte w) (lowByte w) = w :=
  (BitVec.extractLsb'_append_extractLsb'_eq_extractLsb' (by decide)).trans BitVec.extractLsb'_eq_self

theorem workWord_both (a : Addr) (s : State) :
    workWord .both a s = joinBytes (s.workRam.read (workHigh a)) (s.workRam.read (workLow a)) := rfl

theorem wrWram_both (a : Addr) (v : Word) (s : State) :
    wrWram .both a v s = (s.writeWork (workHigh a) (highByte v)).writeWork (workLow a) (lowByte v) := rfl

/-- The two lanes of a word are two different cells, also where the low lane wraps to index 0. -/
theorem workHigh_ne_workLow (a : Addr) : workHigh a ≠ workLow a := by
  unfold workHigh workLow
  omega

/-- Mirrors of one address reach the same cells (20_memory.md R63). -/
theorem workWord_mirror {a a' : Addr} (h : a.toNat % 0x10000 = a'.toNat % 0x10000) (lanes : Lanes) (s : State) :
    workWord lanes a' s = workWord lanes a s := by
  have hhigh : workHigh a' = workHigh a := h.symm
  have hlow : workLow a' = workLow a := by unfold workLow; omega
  rw [workWord, workWord, hhigh, hlow]

/-- A word stored at a work-RAM address is the word there. -/
theorem workWord_wrWram {s : State} (hs : s.Inv) (a : Addr) (v : Word) :
    workWord .both a (wrWram .both a v s) = v := by
  have hhigh : workHigh a < 0x10000 := Nat.mod_lt _ (by decide)
  have hwf := Memory.write_wf hs.work hhigh (highByte v)
  rw [workWord_both, wrWram_both, State.writeWork_workRam, State.writeWork_workRam,
    Memory.read_write_ne _ _ (workHigh_ne_workLow a), Memory.read_write_same hs.work,
    Memory.read_write_same hwf, joinBytes_highByte_lowByte]

/-- A peek of a work-RAM address answers the word there and changes nothing. -/
theorem peek_work {s : State} (hs : s.rom.size ≤ 0xA00000) {a : Addr} (ha : 0xE00000 ≤ a.toNat) :
    peek a s = (workWord .both a s, s) := by
  rw [peek, selectPeek_descriptor, if_neg (by omega), if_pos ha]
  rfl

/-- A served write at a work-RAM address stores its word, and is recorded. -/
theorem serve_write_work {s : State} (hs : s.rom.size ≤ 0xA00000) {a : Addr} (ha : 0xE00000 ≤ a.toNat)
    (callback : Option Handle) (lanes : Lanes) (v : Word) :
    serve callback ⟨.write v, lanes, a⟩ s = (wrWram lanes a v s).emit (.cpuWrite lanes a v) :=
  congrArg (State.emit · (.cpuWrite lanes a v)) (busWrite_work hs lanes v ha)

/-- A served read at a work-RAM address is recorded with the word there, and changes nothing else. -/
theorem serve_read_work {s : State} (hs : s.rom.size ≤ 0xA00000) {a : Addr} (ha : 0xE00000 ≤ a.toNat)
    (callback : Option Handle) (lanes : Lanes) :
    serve callback ⟨.read, lanes, a⟩ s = s.emit (.cpuRead lanes a (workWord lanes a s)) := by
  simp only [serve, busRead_work hs callback lanes ha]

end Sys2Proof.Machine

open Sys2Proof Sys2Proof.Machine

/-- Settles O33: the read and the peek answer the word at `a'`, which is the word at its mirror `a`. -/
theorem workRamWordReadsBackThroughMirrors : Obligations.WorkRamWordReadsBackThroughMirrors := by
  intro s callback a a' v hinv ha ha' hmirror
  have hs := hinv.romSize_le
  have hw : (wrWram .both a v s).rom.size ≤ 0xA00000 := hs
  have hword : workWord .both a' (wrWram .both a v s) = v :=
    (workWord_mirror hmirror _ _).trans (workWord_wrWram hinv a v)
  rw [busWrite_work hs .both v ha]
  exact ⟨by rw [busRead_work hw callback .both ha', hword], by rw [peek_work hw ha', hword]⟩

/-- Settles O35: the write is stored and recorded, then the read answers the word stored. -/
theorem cpuReadSeesItsEarlierWrite : Obligations.CpuReadSeesItsEarlierWrite := by
  intro s callback a v hinv ha
  have hs := hinv.romSize_le
  have hw : ((wrWram .both a v s).emit (.cpuWrite .both a v)).rom.size ≤ 0xA00000 := hs
  have hword : workWord .both a ((wrWram .both a v s).emit (.cpuWrite .both a v)) = v := workWord_wrWram hinv a v
  rw [serveAll, serve_write_work hs ha, serveAll, serve_read_work hw ha, hword, serveAll]
  simp [wrWram_both]
end

section
/-! PROOFS. The encoding (30_encoding.md R80 to R93): what a request spells, and that the decoder answers it. -/

namespace Sys2Proof

/-! ### The address classes of R87 -/

theorem isSoundPort_iff (a : Addr) : isSoundPort a = true ↔ a = 0xA04000 ∨ a = 0xA04002 := by
  simp [isSoundPort]

theorem isJoy12DataPort_iff (a : Addr) : isJoy12DataPort a = true ↔ a = 0xA10004 ∨ a = 0xA10006 := by
  simp [isJoy12DataPort]

theorem isVdpDataPort_iff (a : Addr) : isVdpDataPort a = true ↔ a = 0xC00000 ∨ a = 0xC00002 := by
  simp [isVdpDataPort]

theorem isVdpCtrlPort_iff (a : Addr) : isVdpCtrlPort a = true ↔ a = 0xC00004 ∨ a = 0xC00006 := by
  simp [isVdpCtrlPort]

theorem isUnmapped_iff (size : Nat) (a : Addr) :
    isUnmapped size a = true ↔
      ¬a.toNat < size ∧ ¬(0xA00000 ≤ a.toNat ∧ a.toNat ≤ 0xA01FFF) ∧ ¬(a = 0xA04000 ∨ a = 0xA04002) ∧
        ¬(a = 0xA10004 ∨ a = 0xA10006) ∧ ¬a = 0xA10002 ∧ ¬a = 0xA10008 ∧ ¬a = 0xA1000A ∧ ¬a = 0xA1000C ∧
        ¬a = 0xA11000 ∧ ¬a = 0xA11100 ∧ ¬a = 0xA11200 ∧ ¬a = 0xC00008 ∧ ¬a = 0xC00010 ∧ ¬(a = 0xC00000 ∨ a = 0xC00002) ∧
        ¬(a = 0xC00004 ∨ a = 0xC00006) ∧ ¬0xE00000 ≤ a.toNat := by
  rw [← inSecondaryRam_iff, ← isSoundPort_iff, ← isJoy12DataPort_iff, ← isVdpDataPort_iff, ← isVdpCtrlPort_iff,
    ← inWorkRam_iff]
  simp [isUnmapped, isSinglePort, and_assoc]

theorem wellFormed_peekInvalid (size : Nat) (a : Addr) :
    wellFormed size (.peekInvalid a) = true ↔ size ≤ a.toNat ∧ a.toNat < 0xE00000 := by
  simp [wellFormed, inWorkRam]

/-! ### What a request spells -/

/-- The instruction `i` is what the request `q` spells: its row admits its operands, and its encoding is `q`. -/
structure Spells (size : Nat) (q : Request) (i : Instr) : Prop where
  wellFormed : wellFormed size i = true
  encode : encode i = q

/-- Of rows chosen by a condition, the chosen one is spelled if each is where the condition chooses it. -/
theorem spells_ite {size : Nat} {q : Request} {ρ : Type} {instr : ρ → Instr} {c : Prop} [Decidable c] {r r' : ρ}
    (hr : c → Spells size q (instr r)) (hr' : ¬c → Spells size q (instr r')) :
    Spells size q (instr (if c then r else r')) := by
  split
  · exact hr ‹c›
  · exact hr' ‹¬c›

/-- A read spells the row that the table selects. -/
theorem spells_selectRead (size : Nat) (lanes : Lanes) (a : Addr) :
    Spells size (.read lanes a) (.ofRead lanes a (selectRead size (descriptor false false lanes a))) := by
  rw [selectRead_descriptor]
  exact
    spells_ite (fun hrom => ⟨decide_eq_true hrom, rfl⟩) fun hrom =>
    spells_ite
      (fun hsec => spells_ite (fun hboth => ⟨(inSecondaryRam_iff a).2 hsec, hboth ▸ rfl⟩) fun hone =>
        ⟨Bool.and_eq_true_iff.2 ⟨(inSecondaryRam_iff a).2 hsec, bne_iff_ne.2 hone⟩, rfl⟩) fun hsec =>
    spells_ite (fun hsound => ⟨(isSoundPort_iff a).2 hsound, rfl⟩) fun hsound =>
    spells_ite (fun hjoy0 => ⟨rfl, hjoy0 ▸ rfl⟩) fun hjoy0 =>
    spells_ite (fun hjoy12 => ⟨(isJoy12DataPort_iff a).2 hjoy12, rfl⟩) fun hjoy12 =>
    spells_ite (fun hctrl0 => ⟨rfl, hctrl0 ▸ rfl⟩) fun hctrl0 =>
    spells_ite (fun hctrl1 => ⟨rfl, hctrl1 ▸ rfl⟩) fun hctrl1 =>
    spells_ite (fun hctrl2 => ⟨rfl, hctrl2 ▸ rfl⟩) fun hctrl2 =>
    spells_ite (fun hmemmode => ⟨rfl, hmemmode ▸ rfl⟩) fun hmemmode =>
    spells_ite (fun hbusreq => ⟨rfl, hbusreq ▸ rfl⟩) fun hbusreq =>
    spells_ite (fun hz80rst => ⟨rfl, hz80rst ▸ rfl⟩) fun hz80rst =>
    spells_ite (fun hdata => ⟨(isVdpDataPort_iff a).2 hdata, rfl⟩) fun hdata =>
    spells_ite (fun hctrl => ⟨(isVdpCtrlPort_iff a).2 hctrl, rfl⟩) fun hctrl =>
    spells_ite (fun hhv => ⟨rfl, hhv ▸ rfl⟩) fun hhv =>
    spells_ite (fun hpsg => ⟨rfl, hpsg ▸ rfl⟩) fun hpsg =>
    spells_ite (fun hwork => ⟨(inWorkRam_iff a).2 hwork, rfl⟩) fun hwork =>
    ⟨(isUnmapped_iff size a).2 ⟨hrom, hsec, hsound, hjoy12, hjoy0, hctrl0, hctrl1, hctrl2, hmemmode, hbusreq, hz80rst,
      hhv, hpsg, hdata, hctrl, hwork⟩, rfl⟩

/-- A write spells the row that the table selects. -/
theorem spells_selectWrite (size : Nat) (lanes : Lanes) (a : Addr) (v : Word) :
    Spells size (.write lanes a v) (.ofWrite lanes a v (selectWrite size (descriptor false true lanes a))) := by
  rw [selectWrite_descriptor]
  exact
    spells_ite (fun hrom => ⟨decide_eq_true hrom, rfl⟩) fun hrom =>
    spells_ite
      (fun hsec => spells_ite (fun hboth => ⟨(inSecondaryRam_iff a).2 hsec, hboth ▸ rfl⟩) fun hone =>
        ⟨Bool.and_eq_true_iff.2 ⟨(inSecondaryRam_iff a).2 hsec, bne_iff_ne.2 hone⟩, rfl⟩) fun hsec =>
    spells_ite (fun hsound => ⟨(isSoundPort_iff a).2 hsound, rfl⟩) fun hsound =>
    spells_ite (fun hdata0 => ⟨rfl, hdata0 ▸ rfl⟩) fun hdata0 =>
    spells_ite (fun hdata1 => ⟨rfl, hdata1 ▸ rfl⟩) fun hdata1 =>
    spells_ite (fun hdata2 => ⟨rfl, hdata2 ▸ rfl⟩) fun hdata2 =>
    spells_ite (fun hctrl0 => ⟨rfl, hctrl0 ▸ rfl⟩) fun hctrl0 =>
    spells_ite (fun hctrl1 => ⟨rfl, hctrl1 ▸ rfl⟩) fun hctrl1 =>
    spells_ite (fun hctrl2 => ⟨rfl, hctrl2 ▸ rfl⟩) fun hctrl2 =>
    spells_ite (fun hmemmode => ⟨rfl, hmemmode ▸ rfl⟩) fun hmemmode =>
    spells_ite (fun hbusreq => ⟨rfl, hbusreq ▸ rfl⟩) fun hbusreq =>
    spells_ite (fun hz80rst => ⟨rfl, hz80rst ▸ rfl⟩) fun hz80rst =>
    spells_ite (fun hdata => ⟨(isVdpDataPort_iff a).2 hdata, rfl⟩) fun hdata =>
    spells_ite (fun hctrl => ⟨(isVdpCtrlPort_iff a).2 hctrl, rfl⟩) fun hctrl =>
    spells_ite (fun hhv => ⟨rfl, hhv ▸ rfl⟩) fun hhv =>
    spells_ite (fun hpsg => ⟨rfl, hpsg ▸ rfl⟩) fun hpsg =>
    spells_ite (fun hwork => ⟨(inWorkRam_iff a).2 hwork, rfl⟩) fun hwork =>
    ⟨(isUnmapped_iff size a).2 ⟨hrom, hsec, hsound, not_or.2 ⟨hdata1, hdata2⟩, hdata0, hctrl0, hctrl1, hctrl2, hmemmode,
      hbusreq, hz80rst, hhv, hpsg, hdata, hctrl, hwork⟩, rfl⟩

/-- A peek spells the row that the table selects. -/
theorem spells_selectPeek (size : Nat) (a : Addr) :
    Spells size (.peek a) (.ofPeek a (selectPeek size (descriptor true false .both a))) := by
  rw [selectPeek_descriptor]
  exact
    spells_ite (fun hrom => ⟨decide_eq_true hrom, rfl⟩) fun hrom =>
    spells_ite (fun hwork => ⟨(inWorkRam_iff a).2 hwork, rfl⟩) fun hwork =>
    ⟨(wellFormed_peekInvalid size a).2 ⟨not_lt.1 hrom, not_le.1 hwork⟩, rfl⟩

/-! ### What the decoder answers -/

/-- The descriptors of R86, which spell no transaction. -/
def Descriptor.Refused (t : Descriptor) : Prop :=
  (t.p = false ∧ t.h = false ∧ t.l = false) ∨ (t.p = true ∧ t.w = true) ∨ (t.p = true ∧ ¬(t.h = true ∧ t.l = true))

theorem Descriptor.lanes?_eq_none (t : Descriptor) : t.lanes? = none ↔ t.h = false ∧ t.l = false := by
  unfold Descriptor.lanes?
  cases t.h <;> cases t.l <;> simp

theorem Descriptor.lanes?_eq_some (t : Descriptor) (lanes : Lanes) :
    t.lanes? = some lanes ↔ t.h = lanes.h ∧ t.l = lanes.l := by
  unfold Descriptor.lanes?
  cases lanes <;> cases t.h <;> cases t.l <;> simp [Lanes.h, Lanes.l]

/-- A descriptor with a legal lane request is assembled from its fields (R80, R82). -/
theorem Descriptor.eq_descriptor {t : Descriptor} {lanes : Lanes} (h : t.lanes? = some lanes) :
    t = descriptor t.p t.w lanes t.addr := by
  obtain ⟨hh, hl⟩ := (t.lanes?_eq_some lanes).1 h
  refine Descriptor.ext_fields ?_ (descriptor_addr ..).symm
  rw [Descriptor.flags_eq, descriptor_flags, hh, hl]

/-- A descriptor is a read, a write, a peek in its one legal form (R85), or refused. -/
theorem Descriptor.legal_or_refused (t : Descriptor) :
    (∃ lanes a, t = descriptor false false lanes a) ∨ (∃ lanes a, t = descriptor false true lanes a) ∨
      (∃ a, t = descriptor true false .both a) ∨ t.Refused := by
  cases hlanes : t.lanes? with
  | none =>
    obtain ⟨hh, hl⟩ := t.lanes?_eq_none.1 hlanes
    cases hp : t.p with
    | false => exact .inr (.inr (.inr (.inl ⟨hp, hh, hl⟩)))
    | true => exact .inr (.inr (.inr (.inr (.inr ⟨hp, by simp [hh]⟩))))
  | some lanes =>
    have ht := Descriptor.eq_descriptor hlanes
    obtain ⟨hh, hl⟩ := (t.lanes?_eq_some lanes).1 hlanes
    cases hp : t.p with
    | false =>
      cases hw : t.w with
      | false => exact .inl ⟨lanes, t.addr, by rwa [hp, hw] at ht⟩
      | true => exact .inr (.inl ⟨lanes, t.addr, by rwa [hp, hw] at ht⟩)
    | true =>
      cases hw : t.w with
      | true => exact .inr (.inr (.inr (.inr (.inl ⟨hp, hw⟩))))
      | false =>
        cases lanes with
        | both => exact .inr (.inr (.inl ⟨t.addr, by rwa [hp, hw] at ht⟩))
        | high | low => exact .inr (.inr (.inr (.inr (.inr ⟨hp, by simp [hh, hl, Lanes.h, Lanes.l]⟩))))

theorem decode_of_refused (size : Nat) {t : Descriptor} (v : Word) (h : t.Refused) :
    ∃ e, decode size (.transaction t v) = .error e := by
  rcases h with ⟨hp, hh, hl⟩ | ⟨hp, hw⟩ | ⟨hp, hboth⟩
  · exact ⟨.noLane, by simp [decode, hp, t.lanes?_eq_none.2 ⟨hh, hl⟩]⟩
  · exact ⟨.peekWrite, by simp [decode, hp, hw]⟩
  · have hlanes : t.lanes? ≠ some .both := fun h => hboth ((t.lanes?_eq_some .both).1 h)
    cases hw : t.w with
    | true => exact ⟨.peekWrite, by simp [decode, hp, hw]⟩
    | false => exact ⟨.peekLanes, by simp only [decode, hp, hw]⟩ -- `hlanes` excludes the arm of a legal peek

/-- What a descriptor that is not refused decodes to is what it spells, but for the `V` of a read or a peek (R84). -/
theorem refused_or_spells (size : Nat) (t : Descriptor) (v : Word) :
    t.Refused ∨
      ∃ i, decode size (.transaction t v) = .ok i ∧ Spells size (.transaction t (if t.w then v else 0)) i := by
  rcases t.legal_or_refused with ⟨lanes, a, rfl⟩ | ⟨lanes, a, rfl⟩ | ⟨a, rfl⟩ | h
  · refine .inr ⟨_, ?_, by rw [descriptor_w]; exact spells_selectRead size lanes a⟩
    simp [decode]
  · refine .inr ⟨_, ?_, by rw [descriptor_w]; exact spells_selectWrite size lanes a v⟩
    simp [decode]
  · refine .inr ⟨_, ?_, by rw [descriptor_w]; exact spells_selectPeek size a⟩
    simp [decode]
  · exact .inl h

theorem spells_of_decode {size : Nat} {t : Descriptor} {v : Word} {i : Instr}
    (h : decode size (.transaction t v) = .ok i) : Spells size (.transaction t (if t.w then v else 0)) i := by
  rcases refused_or_spells size t v with ht | ⟨j, hj, hspells⟩
  · obtain ⟨e, he⟩ := decode_of_refused size v ht
    cases h.symm.trans he
  · cases h.symm.trans hj
    exact hspells

theorem decode_error_iff (size : Nat) (t : Descriptor) (v : Word) :
    (∃ e, decode size (.transaction t v) = .error e) ↔ t.Refused := by
  refine ⟨fun ⟨e, he⟩ => ?_, decode_of_refused size v⟩
  rcases refused_or_spells size t v with ht | ⟨i, hi, -⟩
  · exact ht
  · cases he.symm.trans hi

theorem selectRead_unmapped {size : Nat} (lanes : Lanes) {a : Addr} (h : isUnmapped size a = true) :
    selectRead size (descriptor false false lanes a) = .invalid := by
  obtain ⟨hrom, hsec, hsound, hjoy12, hjoy0, hctrl0, hctrl1, hctrl2, hmemmode, hbusreq, hz80rst, hhv, hpsg, hdata,
    hctrl, hwork⟩ := (isUnmapped_iff size a).1 h
  simp only [selectRead_descriptor, *, if_false]

theorem selectWrite_unmapped {size : Nat} (lanes : Lanes) {a : Addr} (h : isUnmapped size a = true) :
    selectWrite size (descriptor false true lanes a) = .invalid := by
  obtain ⟨hrom, hsec, hsound, hjoy12, hjoy0, hctrl0, hctrl1, hctrl2, hmemmode, hbusreq, hz80rst, hhv, hpsg, hdata,
    hctrl, hwork⟩ := (isUnmapped_iff size a).1 h
  obtain ⟨hdata1, hdata2⟩ := not_or.1 hjoy12
  simp only [selectWrite_descriptor, *, if_false]

theorem selectPeek_unmapped {size : Nat} {a : Addr} (hrom : size ≤ a.toNat) (hwork : a.toNat < 0xE00000) :
    selectPeek size (descriptor true false .both a) = .invalid := by
  rw [selectPeek_descriptor, if_neg (by omega), if_neg (by omega)]

/-- The decoder answers each well-formed instruction from its encoding: under R10's bound on the size, no row above its
own lists its operands. -/
theorem decode_encode {size : Nat} (hs : size ≤ 0xA00000) {i : Instr} (hwf : wellFormed size i = true) :
    decode size (encode i) = .ok i := by
  have above_rom : ∀ n, 0xA00000 ≤ n → ¬n < size := by omega
  cases i with
  | rdRom | wrRom | peekRom =>
    simp [encode, decode_read, decode_write, decode_peek, selectRead_descriptor, selectWrite_descriptor,
      selectPeek_descriptor, of_decide_eq_true hwf, Instr.ofRead, Instr.ofWrite, Instr.ofPeek]
  | rdSramW a | wrSramW a v =>
    have hsec := (inSecondaryRam_iff a).1 hwf
    simp [encode, decode_read, decode_write, selectRead_descriptor, selectWrite_descriptor, above_rom _ hsec.1, hsec,
      Instr.ofRead, Instr.ofWrite]
  | rdSramB lanes a | wrSramB lanes a v =>
    obtain ⟨hsec, hone⟩ := Bool.and_eq_true_iff.1 hwf
    rw [inSecondaryRam_iff] at hsec
    rw [bne_iff_ne] at hone
    simp only [encode, decode_read, decode_write, selectRead_secondary hs hsec hone, selectWrite_secondary hs hsec hone,
      Instr.ofRead, Instr.ofWrite]
  | rdSound lanes a | wrSound lanes a v | rdJoy12Data lanes a | rdVdpData lanes a | wrVdpData lanes a v
  | rdVdpCtrl lanes a | wrVdpCtrl lanes a v =>
    simp only [wellFormed, isSoundPort_iff, isJoy12DataPort_iff, isVdpDataPort_iff, isVdpCtrlPort_iff] at hwf
    rcases hwf with rfl | rfl <;>
      simp [encode, decode_read, decode_write, selectRead_descriptor, selectWrite_descriptor, above_rom, Instr.ofRead,
        Instr.ofWrite]
  | rdWram lanes a | wrWram lanes a v =>
    have hwork := (inWorkRam_iff a).1 hwf
    simp only [encode, decode_read, decode_write, selectRead_work lanes hs hwork, selectWrite_work lanes hs hwork,
      Instr.ofRead, Instr.ofWrite]
  | rdInvalid lanes a | wrInvalid lanes a v =>
    simp only [encode, decode_read, decode_write, selectRead_unmapped lanes hwf, selectWrite_unmapped lanes hwf,
      Instr.ofRead, Instr.ofWrite]
  | peekWram a =>
    have hwork := (inWorkRam_iff a).1 hwf
    rw [encode, decode_peek, selectPeek_descriptor, if_neg (by omega), if_pos hwork, Instr.ofPeek]
  | peekInvalid a =>
    obtain ⟨hrom, hwork⟩ := (wellFormed_peekInvalid size a).1 hwf
    rw [encode, decode_peek, selectPeek_unmapped hrom hwork, Instr.ofPeek]
  | init | reset | installRom | setRomWriteable | setPal | setJapanese | runFrame | stateSize => rfl
  | _ => -- the rows of one address
    simp [encode, decode_read, decode_write, selectRead_descriptor, selectWrite_descriptor, above_rom, Instr.ofRead,
      Instr.ofWrite]

end Sys2Proof

namespace Sys2Proof.Machine

/-! ### The step (R93) -/

theorem step_empty {s : State} (h : s.pending = []) : step s = .refused .noRequest := by
  simp only [step, h]

theorem step_decoded {s : State} {q : Request} {rest : List Request} {i : Instr} (h : s.pending = q :: rest)
    (hi : decode s.rom.size q = .ok i) : step s = exec i { s with pending := rest } := by
  simp only [step, h, hi]

theorem step_undecodable {s : State} {q : Request} {rest : List Request} {e : DecodeError} (h : s.pending = q :: rest)
    (he : decode s.rom.size q = .error e) : step s = .refused (refusalOf e) := by
  simp only [step, h, he]

end Sys2Proof.Machine

open Sys2Proof Sys2Proof.Machine

/-- Settles O2: no row above an instruction's own lists its operands. -/
theorem decodeEncodeRoundTrip : Obligations.DecodeEncodeRoundTrip :=
  fun _ _ hs hwf => decode_encode hs hwf

/-- Settles O3: a transaction by `spells_of_decode`, a host operation by its constructor. -/
theorem encodeOfDecodedIsRequest : Obligations.EncodeOfDecodedIsRequest := by
  rintro size (⟨t, v⟩ | op) i h
  · exact (spells_of_decode h).encode
  · cases h
    cases op <;> rfl

/-- Settles O4: the row selected is one that admits the operands. -/
theorem decodedIsWellFormed : Obligations.DecodedIsWellFormed :=
  fun _ _ _ _ h => (spells_of_decode h).wellFormed

/-- Settles O5: the refusals by the cases of a descriptor, the default rows by the tables. -/
theorem refusedDescriptorsAreR86 : Obligations.RefusedDescriptorsAreR86 := by
  intro s t v rest lanes a
  refine ⟨decode_error_iff _ t v, fun hpending hrefused => ?_, fun ha => ⟨?_, ?_⟩, fun hrom hwork => ?_⟩
  · obtain ⟨e, he⟩ := decode_of_refused s.rom.size v hrefused
    exact ⟨_, step_undecodable hpending he⟩
  · rw [decode_read, selectRead_unmapped lanes ha, Instr.ofRead]
  · rw [decode_write, selectWrite_unmapped lanes ha, Instr.ofWrite]
  · rw [decode_peek, selectPeek_unmapped hrom hwork, Instr.ofPeek]

/-- Settles O6: the rows of `selectRead_descriptor`, each with its operands. -/
theorem readTableIsAddressMap : Obligations.ReadTableIsAddressMap := by
  intro size lanes a
  rw [decode_read, selectRead_descriptor]
  simp only [↓apply_ite (Instr.ofRead lanes a), Instr.ofRead]

/-- Settles O7: the rows of `selectWrite_descriptor`, each with its operands. -/
theorem writeTableIsAddressMap : Obligations.WriteTableIsAddressMap := by
  intro size lanes a v
  rw [decode_write, selectWrite_descriptor]
  simp only [↓apply_ite (Instr.ofWrite lanes a v), Instr.ofWrite]

/-- Settles O8: the rows of `selectPeek_descriptor`, each with its operand. -/
theorem peekTableIsAddressMap : Obligations.PeekTableIsAddressMap := by
  intro size a
  rw [decode_peek, selectPeek_descriptor]
  simp only [↓apply_ite (Instr.ofPeek a), Instr.ofPeek]

/-- Settles O10: the step selects the row that the decoder call selects, and `exec` performs it. -/
theorem transactionStepsAreDecoderCalls : Obligations.TransactionStepsAreDecoderCalls := by
  intro s rest lanes a v
  refine ⟨fun h => ?_, fun h => ?_, fun h => ?_⟩
  · exact (step_decoded h (decode_read ..)).trans (exec_ofRead lanes a _ _)
  · exact (step_decoded h (decode_write ..)).trans (exec_ofWrite lanes a v _ _)
  · exact (step_decoded h (decode_peek ..)).trans (exec_ofPeek a _ _)

/-- Settles O1: by evaluating the decoder on the seven descriptors. -/
theorem listedDescriptorsDecode : Obligations.ListedDescriptorsDecode := by
  unfold Obligations.ListedDescriptorsDecode
  decide

/-- Settles O9: the three outcomes of `step`. -/
theorem stepRunsDecodedInstruction : Obligations.StepRunsDecodedInstruction :=
  fun _ _ _ => ⟨step_empty, fun h => ⟨fun _ => step_decoded h, fun _ => step_undecodable h⟩⟩
end

section
/-! PROOFS. The primary-bus reads (40_bus_read.md R100 to R118): the word each row answers, and the changes it makes. -/

namespace Sys2Proof

/-- A request names at least one lane (30_encoding.md R82). -/
theorem Lanes.l_of_not_h {lanes : Lanes} (hhigh : ¬lanes.h = true) : lanes.l = true := by
  cases lanes with
  | low => rfl
  | high | both => exact absurd rfl hhigh

/-- An address that is unmapped with one image is unmapped with every image that it lies above. -/
theorem isUnmapped_of_romSize_le {size size' : Nat} {a : Addr} (h : isUnmapped size' a = true) (hrom : size ≤ a.toNat) :
    isUnmapped size a = true := by
  obtain ⟨-, hmapped⟩ := (isUnmapped_iff size' a).1 h
  exact (isUnmapped_iff size a).2 ⟨not_lt.2 hrom, hmapped⟩

/-- R10 bounds the image: the unmapped addresses from secondary RAM on are the same with every image. -/
theorem isUnmapped_of_secondary_le {size : Nat} (hs : size ≤ 0xA00000) {a : Addr}
    (h : isUnmapped 0 a = true ∧ 0xA00000 ≤ a.toNat) : isUnmapped size a = true := by
  obtain ⟨hrows, habove⟩ := h
  exact isUnmapped_of_romSize_le hrows (hs.trans habove)

/-- Without an image, every address below secondary RAM is unmapped. -/
theorem isUnmapped_below_secondary {a : Addr} (ha : a.toNat ≤ 0x9FFFFF) : isUnmapped 0 a = true := by
  have hne : ∀ c : Addr, 0xA00000 ≤ c.toNat → a ≠ c := by
    rintro c hc rfl
    omega
  have hwork : ¬0xE00000 ≤ a.toNat := by omega
  rw [isUnmapped_iff, and_iff_right (by omega), and_iff_right (by omega)]
  simp [hne, hwork]

end Sys2Proof

namespace Sys2Proof.Machine

/-! ### The requested lanes (R100, R118) -/

theorem laneMask_eq_joinBytes (lanes : Lanes) :
    laneMask lanes = joinBytes (if lanes.h then 0xFF else 0) (if lanes.l then 0xFF else 0) := by
  cases lanes <;> rfl

/-- A word has no bit outside the requested lanes (R118). -/
def InLanes (lanes : Lanes) (w : Word) : Prop := w &&& ~~~laneMask lanes = 0

theorem inLanes_joinBytes {lanes : Lanes} {hi lo : Byte} (hhigh : lanes.h = false → hi = 0)
    (hlow : lanes.l = false → lo = 0) : InLanes lanes (joinBytes hi lo) := by
  have hmasked : ∀ (requested : Bool) (b : Byte), (requested = false → b = 0) →
      b &&& ~~~(if requested then 0xFF else 0) = 0 := by
    rintro (_ | _) b hb
    · simp [hb rfl]
    · simp
  rw [InLanes, laneMask_eq_joinBytes, joinBytes, joinBytes, BitVec.not_append, BitVec.and_append,
    hmasked _ _ hhigh, hmasked _ _ hlow]
  rfl

theorem inLanes_zero (lanes : Lanes) : InLanes lanes 0 := BitVec.zero_and

theorem inLanes_laneWord (lanes : Lanes) (hi lo : Byte) : InLanes lanes (laneWord lanes hi lo) :=
  inLanes_joinBytes (by simp +contextual) (by simp +contextual)

theorem inLanes_and_laneMask (lanes : Lanes) (w : Word) : InLanes lanes (w &&& laneMask lanes) := by
  rw [InLanes, BitVec.and_assoc, BitVec.and_not_self]
  exact BitVec.and_zero

/-- Whatever the row, the word of a read lies in the requested lanes. -/
theorem inLanes_readRow (callback : Option Handle) (lanes : Lanes) (a : Addr) (s : State) (r : ReadRow) :
    InLanes lanes (readRow callback lanes a s r).1 := by
  cases r with
  | rom => exact inLanes_laneWord lanes _ _
  | sramB =>
    rw [readRow, rdSramB]
    split
    · next hhigh => exact inLanes_joinBytes (by simp [hhigh]) fun _ => rfl
    · next hhigh => exact inLanes_joinBytes (fun _ => rfl) fun hlow => absurd (lanes.l_of_not_h hhigh) (by simp [hlow])
  | joy0Data =>
    rw [readRow, rdJoy0Data]
    split
    · next hlow => exact inLanes_joinBytes (fun _ => rfl) (by simp [hlow])
    · exact inLanes_zero lanes
  | joyCtrl n =>
    rw [readRow, rdJoyCtrl]
    split
    · next hlow => exact inLanes_joinBytes (fun _ => rfl) (by simp [hlow])
    · exact inLanes_zero lanes
  | joy12Data | vdpData | vdpCtrl => exact inLanes_and_laneMask lanes _
  | wram => exact inLanes_laneWord lanes _ _
  | sramW | sound | memmode | busreq | z80rst | hv | psg | invalid => exact inLanes_zero lanes

/-! ### The rows that draw -/

/-- A ROM read: the low byte is the buffer's and `env` is kept, unless the low lane is requested past the buffer. -/
theorem romWord_draws (lanes : Lanes) (a : Addr) (s : State) :
    ∃ low e, romWord lanes a s = (laneWord lanes (s.rom.buffer.read (romHigh a)) low, s.setEnv e) ∧
      (romLow a < s.cfg.romCapacity → low = s.rom.buffer.read (romLow a)) ∧
      (lanes.l = false ∨ romLow a < s.cfg.romCapacity → e = s.env) := by
  by_cases hin : romLow a < s.cfg.romCapacity
  · refine ⟨s.rom.buffer.read (romLow a), s.env, ?_, fun _ => rfl, fun _ => rfl⟩
    rw [romWord, romLowByte, if_pos hin]
    cases lanes <;> rfl
  · cases hlow : lanes.l with
    | false => exact ⟨0, s.env, by simp [romWord, hlow, State.setEnv], by simp [hin], fun _ => rfl⟩
    | true =>
      obtain ⟨low, e, hdraw⟩ := drawByte_spec s
      exact ⟨low, e, by simp [romWord, romLowByte, hlow, hin, hdraw], by simp [hin], by simp [hin]⟩

/-- One call of the facade, its word masked to the requested lanes. -/
theorem rdVdpData_spec (lanes : Lanes) (s : State) : ∃ w e v,
    rdVdpData lanes s = (w &&& laneMask lanes, ((s.emit (.vdpReadData w)).setVdp v).setEnv e) := by
  obtain ⟨w, e, v, hcall⟩ := vdpReadData_spec s
  exact ⟨w, e, v, by rw [rdVdpData, hcall]⟩

/-- One call of the facade, its word masked to the requested lanes. -/
theorem rdVdpCtrl_spec (lanes : Lanes) (s : State) : ∃ w e v,
    rdVdpCtrl lanes s = (w &&& laneMask lanes, ((s.emit (.vdpReadCtrl w)).setVdp v).setEnv e) := by
  obtain ⟨w, e, v, hcall⟩ := vdpReadCtrl_spec s
  exact ⟨w, e, v, by rw [rdVdpCtrl, hcall]⟩

/-- The lines of a group's buttons, given the answer for each button (42_joypad.md R185, R186). -/
def groupByte (answer : Button → Bool) (group : List (Button × Nat)) : Byte :=
  group.foldr (fun x byte => buttonLine (answer x.1) x.2 ||| byte) 0

/-- The record of a group's queries, given the answer for each button. -/
def groupEvents (callback : Option Handle) (ids : ButtonIds) (answer : Button → Bool) (group : List (Button × Nat)) :
    List Event :=
  group.map fun x => .query callback x.1 (ids.token x.1) (answer x.1)

theorem groupByte_cons (answer : Button → Bool) (x : Button × Nat) (rest : List (Button × Nat)) :
    groupByte answer (x :: rest) = buttonLine (answer x.1) x.2 ||| groupByte answer rest := rfl

theorem groupEvents_cons (callback : Option Handle) (ids : ButtonIds) (answer : Button → Bool) (x : Button × Nat)
    (rest : List (Button × Nat)) : groupEvents callback ids answer (x :: rest) =
      .query callback x.1 (ids.token x.1) (answer x.1) :: groupEvents callback ids answer rest := rfl

/-- A group of different buttons: each is queried once, its answer any value, and the byte is that of the answers. -/
theorem buttonTerm_answers (callback : Option Handle) {group : List (Button × Nat)}
    (hgroup : (group.map Prod.fst).Nodup) : ∀ s : State, ∃ answer e, buttonTerm callback group s =
      (groupByte answer group,
        { s with env := e, trace := s.trace ++ groupEvents callback s.cfg.buttonIds answer group }) := by
  induction group with
  | nil => exact fun s => ⟨fun _ => false, s.env, by simp [buttonTerm, groupByte, groupEvents]⟩
  | cons x rest ih =>
    intro s
    obtain ⟨hx, hrest⟩ := List.nodup_cons.1 hgroup
    obtain ⟨q, e₁, hquery⟩ := query_spec callback x.1 s
    obtain ⟨answer, e, hterm⟩ := ih hrest ((s.emit (.query callback x.1 (s.cfg.buttonIds.token x.1) q)).setEnv e₁)
    have hother : ∀ y ∈ rest, Function.update answer x.1 q y.1 = answer y.1 := fun y hy =>
      Function.update_of_ne (fun h => hx (List.mem_map.2 ⟨y, hy, h⟩)) _ _
    have hbyte : groupByte (Function.update answer x.1 q) rest = groupByte answer rest :=
      List.foldr_ext _ _ _ fun y hy _ => by rw [hother y hy]
    have hevents : groupEvents callback s.cfg.buttonIds (Function.update answer x.1 q) rest =
        groupEvents callback s.cfg.buttonIds answer rest :=
      List.map_congr_left fun y hy => by rw [hother y hy]
    refine ⟨Function.update answer x.1 q, e, ?_⟩
    simp [buttonTerm, hquery, hterm, groupByte_cons, groupEvents_cons, hbyte, hevents]

theorem selectedGroup_nodup (data : Byte) : ((selectedGroup data).map Prod.fst).Nodup := by
  unfold selectedGroup
  split <;> decide

/-- The port-0 data read with the low lane: the stored byte ORed with the lines of the selected group. -/
theorem rdJoy0Data_answers (callback : Option Handle) {lanes : Lanes} (hlow : lanes.l = true) (s : State) :
    ∃ answer e, rdJoy0Data callback lanes s =
      (joinBytes 0 (s.joypads.p0.data ||| groupByte answer (selectedGroup s.joypads.p0.data)),
        { s with
          env := e
          trace := s.trace ++ groupEvents callback s.cfg.buttonIds answer (selectedGroup s.joypads.p0.data) }) := by
  obtain ⟨answer, e, hterm⟩ := buttonTerm_answers callback (selectedGroup_nodup s.joypads.p0.data) s
  exact ⟨answer, e, by simp only [rdJoy0Data, if_pos hlow, joyRead0, hterm]⟩

/-- Group 1's lines at bits 5 to 0 (42_joypad.md R182). -/
theorem groupByte_group1 (answer : Button → Bool) : groupByte answer group1 =
    0#2 ++ BitVec.ofBool (!answer .c) ++ BitVec.ofBool (!answer .b) ++ BitVec.ofBool (!answer .right) ++
      BitVec.ofBool (!answer .left) ++ BitVec.ofBool (!answer .down) ++ BitVec.ofBool (!answer .up) := by
  have hlines : ∀ c b right left down up : Bool,
      buttonLine c 5 ||| (buttonLine b 4 ||| (buttonLine right 3 ||| (buttonLine left 2 ||| (buttonLine down 1 |||
        (buttonLine up 0 ||| 0))))) =
      0#2 ++ BitVec.ofBool (!c) ++ BitVec.ofBool (!b) ++ BitVec.ofBool (!right) ++ BitVec.ofBool (!left) ++
        BitVec.ofBool (!down) ++ BitVec.ofBool (!up) := by decide
  exact hlines _ _ _ _ _ _

/-- Group 0's lines at bits 5, 4, 1 and 0 (42_joypad.md R184). -/
theorem groupByte_group0 (answer : Button → Bool) : groupByte answer group0 =
    0#2 ++ BitVec.ofBool (!answer .start) ++ BitVec.ofBool (!answer .a) ++ 0#2 ++ BitVec.ofBool (!answer .down) ++
      BitVec.ofBool (!answer .up) := by
  have hlines : ∀ start a down up : Bool,
      buttonLine start 5 ||| (buttonLine a 4 ||| (buttonLine down 1 ||| (buttonLine up 0 ||| 0))) =
      0#2 ++ BitVec.ofBool (!start) ++ BitVec.ofBool (!a) ++ 0#2 ++ BitVec.ofBool (!down) ++ BitVec.ofBool (!up) := by
    decide
  exact hlines _ _ _ _

/-! ### The rows that answer a stored byte or a constant -/

theorem rdJoyCtrl_eq (n : Port) (lanes : Lanes) (s : State) :
    rdJoyCtrl n lanes s = (joinBytes 0 (if lanes.l then (s.joypads.get n).control else 0), s) := by
  rw [rdJoyCtrl]
  split <;> rfl

/-- The control port's address is no operand of its instruction: the address given here is arbitrary. -/
theorem exec_joyCtrl (n : Port) (lanes : Lanes) (s : State) : exec (.ofRead lanes 0 (.joyCtrl n)) s =
    .next { s with result := .word (joinBytes 0 (if lanes.l then (s.joypads.get n).control else 0)) } :=
  (exec_ofRead lanes 0 s (.joyCtrl n)).trans (congrArg answerWord (rdJoyCtrl_eq n lanes s))

theorem rdJoy12Data_eq (lanes : Lanes) (s : State) :
    rdJoy12Data lanes s = (joinBytes (if lanes.h then 0xFF else 0) (if lanes.l then 0xFF else 0), s) := by
  rw [rdJoy12Data, laneMask_eq_joinBytes]
  cases lanes <;> rfl

theorem rdSramB_eq (lanes : Lanes) (a : Addr) (s : State) : rdSramB lanes a s =
    (if lanes.h then joinBytes (s.secondaryRam.read (secondaryHigh a)) 0
      else joinBytes 0 (s.secondaryRam.read (secondaryLow a)), s) := by
  rw [rdSramB]
  split <;> rfl

end Sys2Proof.Machine

open Sys2Proof Sys2Proof.Machine

/-- Settles O21: row by row, by `inLanes_readRow`. -/
theorem busReadStaysInLanes : Obligations.BusReadStaysInLanes :=
  fun callback lanes a s => inLanes_readRow callback lanes a s _

/-- Settles O11: the first row of the table; the word and the draw by `romWord_draws`. -/
theorem readRomAnswersBufferBytes : Obligations.ReadRomAnswersBufferBytes := by
  intro s lanes a ha
  obtain ⟨low, e, hword, hlow, henv⟩ := romWord_draws lanes a s
  refine ⟨by rw [decode_read, selectRead_descriptor, if_pos ha, Instr.ofRead], low, e, ?_, hlow, henv⟩
  exact (exec_ofRead lanes a s .rom).trans (congrArg answerWord hword)

/-- Settles O12: both lanes in secondary RAM's range are the row of the protocol error. -/
theorem readSecondaryWordLogsBusWidth : Obligations.ReadSecondaryWordLogsBusWidth :=
  fun _ a hs hlow hhigh => ⟨decode_encode hs (i := .rdSramW a) ((inSecondaryRam_iff a).2 ⟨hlow, hhigh⟩), rfl⟩

/-- Settles O13: the row by `selectRead_secondary`, the word by `rdSramB_eq`. -/
theorem readSecondaryByteAnswersLane : Obligations.ReadSecondaryByteAnswersLane := by
  intro s lanes a hs hlow hhigh hone
  refine ⟨by rw [decode_read, selectRead_secondary hs ⟨hlow, hhigh⟩ hone, Instr.ofRead], ?_⟩
  exact (exec_ofRead lanes a s .sramB).trans (congrArg answerWord (rdSramB_eq lanes a s))

/-- Settles O14: the stubs' rows by `decode_encode`; the odd neighbours of the sound ports are unmapped. -/
theorem stubReadsAnswerZero : Obligations.StubReadsAnswerZero := by
  intro s lanes a hs
  refine ⟨fun ha => ⟨decode_encode hs (i := .rdSound lanes a) ((isSoundPort_iff a).2 ha), rfl⟩, fun ha => ?_,
    decode_encode hs (i := .rdMemmode lanes) rfl, rfl, decode_encode hs (i := .rdBusreq lanes) rfl, rfl,
    decode_encode hs (i := .rdZ80rst lanes) rfl, rfl, decode_encode hs (i := .rdHv lanes) rfl, rfl,
    decode_encode hs (i := .rdPsg lanes) rfl, rfl⟩
  have hunmapped : isUnmapped 0 a = true ∧ 0xA00000 ≤ a.toNat := by rcases ha with rfl | rfl <;> decide
  exact decode_encode hs (i := .rdInvalid lanes a) (isUnmapped_of_secondary_le hs hunmapped)

/-- Settles O15: the queries and the byte by `rdJoy0Data_answers`, each group's bits by `groupByte_group1` and
`groupByte_group0`. -/
theorem readJoypad0MultiplexesGroups : Obligations.ReadJoypad0MultiplexesGroups := by
  intro s lanes hs
  have hexec : exec (.rdJoy0Data lanes) s = answerWord (rdJoy0Data none lanes s) := exec_ofRead lanes 0 s .joy0Data
  refine ⟨decode_encode hs (i := .rdJoy0Data lanes) rfl, fun hlow => ?_, fun hlow hth => ?_, fun hlow hth => ?_⟩
  · have hread : rdJoy0Data none lanes s = (0, s) := by simp [rdJoy0Data, hlow]
    exact hexec.trans (congrArg answerWord hread)
  · obtain ⟨answer, e, hread⟩ := rdJoy0Data_answers none hlow s
    have hgroup : selectedGroup s.joypads.p0.data = group1 := if_pos hth
    rw [hgroup, groupByte_group1] at hread
    exact ⟨_, _, _, _, _, _, e, hexec.trans (congrArg answerWord hread)⟩
  · obtain ⟨answer, e, hread⟩ := rdJoy0Data_answers none hlow s
    have hgroup : selectedGroup s.joypads.p0.data = group0 := if_neg (Bool.eq_false_iff.1 hth)
    rw [hgroup, groupByte_group0] at hread
    exact ⟨_, _, _, _, e, hexec.trans (congrArg answerWord hread)⟩

/-- Settles O16: the word by `rdJoy12Data_eq`. -/
theorem readJoypad12AnswersOnes : Obligations.ReadJoypad12AnswersOnes :=
  fun s lanes a hs ha => ⟨decode_encode hs (i := .rdJoy12Data lanes a) ((isJoy12DataPort_iff a).2 ha),
    (exec_ofRead lanes a s .joy12Data).trans (congrArg answerWord (rdJoy12Data_eq lanes s))⟩

/-- Settles O17: the rows by `decode_encode`, each port's byte by `exec_joyCtrl`. -/
theorem readJoypadControlAnswersByte : Obligations.ReadJoypadControlAnswersByte :=
  fun s lanes hs =>
    ⟨decode_encode hs (i := .rdJoyCtrl0 lanes) rfl, exec_joyCtrl .p0 lanes s,
      decode_encode hs (i := .rdJoyCtrl1 lanes) rfl, exec_joyCtrl .p1 lanes s,
      decode_encode hs (i := .rdJoyCtrl2 lanes) rfl, exec_joyCtrl .p2 lanes s⟩

/-- Settles O18: the facade call and its word by `rdVdpData_spec` and `rdVdpCtrl_spec`. -/
theorem readVdpPortsMaskFacadeWord : Obligations.ReadVdpPortsMaskFacadeWord := by
  intro s lanes a hs
  refine ⟨fun ha => ?_, fun ha => ?_⟩
  · obtain ⟨w, e, v, hread⟩ := rdVdpData_spec lanes s
    refine ⟨decode_encode hs (i := .rdVdpData lanes a) ((isVdpDataPort_iff a).2 ha), w, e, v, ?_⟩
    exact (exec_ofRead lanes a s .vdpData).trans (congrArg answerWord hread)
  · obtain ⟨w, e, v, hread⟩ := rdVdpCtrl_spec lanes s
    refine ⟨decode_encode hs (i := .rdVdpCtrl lanes a) ((isVdpCtrlPort_iff a).2 ha), w, e, v, ?_⟩
    exact (exec_ofRead lanes a s .vdpCtrl).trans (congrArg answerWord hread)

/-- Settles O19: the row's word is `workWord`, whose indices are R116's. -/
theorem readWorkRamAnswersLanes : Obligations.ReadWorkRamAnswersLanes :=
  fun _ lanes a hs ha => ⟨decode_encode hs (i := .rdWram lanes a) ((inWorkRam_iff a).2 ha), rfl⟩

/-- Settles O20: each address named is unmapped, and the row's own rule is R117. -/
theorem readUnmappedLogsInvalid : Obligations.ReadUnmappedLogsInvalid := by
  intro s lanes a hs ha
  suffices hunmapped : isUnmapped s.rom.size a = true from
    ⟨decode_encode hs (i := .rdInvalid lanes a) hunmapped, rfl⟩
  rcases ha with ⟨hrom, hbelow⟩ | rfl | rfl | rfl | rfl | ha
  · exact isUnmapped_of_romSize_le (isUnmapped_below_secondary hbelow) hrom
  · exact isUnmapped_of_secondary_le hs (by decide)
  · exact isUnmapped_of_secondary_le hs (by decide)
  · exact isUnmapped_of_secondary_le hs (by decide)
  · exact isUnmapped_of_secondary_le hs (by decide)
  · exact ha
end

section
/-! PROOFS. The primary-bus writes (41_bus_write.md R140 to R157): what each row that stores leaves in the machine. -/

namespace Sys2Proof.Machine

/-! ### The rows of ROM and of the two RAMs -/

/-- A write below the ROM size takes the first row of the table. -/
theorem selectWrite_rom {size : Nat} (lanes : Lanes) {a : Addr} (ha : a.toNat < size) :
    selectWrite size (descriptor false true lanes a) = .rom := by
  rw [selectWrite_descriptor, if_pos ha]

/-- A one-lane write to secondary RAM is one cell stored (R144). -/
theorem wrSramB_eq (lanes : Lanes) (a : Addr) (v : Word) (s : State) : wrSramB lanes a v s =
    s.writeSecondary (if lanes.h then secondaryHigh a else secondaryLow a)
      (if lanes.h then highByte v else lowByte v) := by
  rw [wrSramB]
  split <;> rfl

theorem wrWram_eq (lanes : Lanes) (a : Addr) (v : Word) (s : State) :
    wrWram lanes a v s = { s with workRam := (wrWram lanes a v s).workRam } := by
  cases lanes <;> rfl

/-- A cell that no requested lane names keeps its byte. -/
theorem wrWram_read_other {lanes : Lanes} {a : Addr} (v : Word) (s : State) {j : Nat}
    (hhigh : ¬(lanes.h = true ∧ j = workHigh a)) (hlow : ¬(lanes.l = true ∧ j = workLow a)) :
    (wrWram lanes a v s).workRam.read j = s.workRam.read j := by
  cases lanes with
  | high => exact Memory.read_write_ne _ _ fun h => hhigh ⟨rfl, h⟩
  | low => exact Memory.read_write_ne _ _ fun h => hlow ⟨rfl, h⟩
  | both =>
    rw [wrWram_both, State.writeWork_workRam, State.writeWork_workRam,
      Memory.read_write_ne _ _ fun h => hlow ⟨rfl, h⟩, Memory.read_write_ne _ _ fun h => hhigh ⟨rfl, h⟩]

/-- Each requested lane holds its byte of the word; the low lane's store leaves the high lane's cell alone. -/
theorem wrWram_read_requested (lanes : Lanes) (a : Addr) (v : Word) {s : State} (hwf : s.workRam.wf 0x10000 = true) :
    (lanes.h = true → (wrWram lanes a v s).workRam.read (workHigh a) = highByte v) ∧
      (lanes.l = true → (wrWram lanes a v s).workRam.read (workLow a) = lowByte v) := by
  cases lanes with
  | high => exact ⟨fun _ => Memory.read_write_same hwf _ _, nofun⟩
  | low => exact ⟨nofun, fun _ => Memory.read_write_same hwf _ _⟩
  | both =>
    have hhigh : workHigh a < 0x10000 := Nat.mod_lt _ (by decide)
    rw [wrWram_both, State.writeWork_workRam, State.writeWork_workRam]
    refine ⟨fun _ => ?_, fun _ => Memory.read_write_same (Memory.write_wf hwf hhigh _) _ _⟩
    rw [Memory.read_write_ne _ _ (workHigh_ne_workLow a), Memory.read_write_same hwf]

/-! ### The joypad rows -/

/-- The data port's address is no operand of its instruction: the address given here is arbitrary. -/
theorem exec_writeJoyData (n : Port) (lanes : Lanes) (v : Word) (s : State) :
    exec (.ofWrite lanes 0 v (.joyData n)) s =
      .next { s with
        result := .nothing
        joypads :=
          if lanes.l then
            s.joypads.set n {
              control := (s.joypads.get n).control, data := lowByte v &&& (s.joypads.get n).control }
          else s.joypads } := by
  rw [exec_ofWrite, writeRow, wrJoyData]
  split <;> rfl

/-- The control port's address is no operand of its instruction: the address given here is arbitrary. -/
theorem exec_writeJoyCtrl (n : Port) (lanes : Lanes) (v : Word) (s : State) :
    exec (.ofWrite lanes 0 v (.joyCtrl n)) s =
      .next { s with
        result := .nothing
        joypads :=
          if lanes.l then s.joypads.set n { control := lowByte v, data := (s.joypads.get n).data }
          else s.joypads } := by
  rw [exec_ofWrite, writeRow, wrJoyCtrl]
  split <;> rfl

end Sys2Proof.Machine

open Sys2Proof Sys2Proof.Machine

/-- Settles O32: every row keeps the configuration, and a write below the ROM size takes the row that logs. -/
theorem busWriteKeepsRomAndFlags : Obligations.BusWriteKeepsRomAndFlags := by
  intro lanes a v s
  have hsame : SameConfiguration s (busWrite lanes a v s) := sameConfiguration_writeRow lanes a v s _
  refine ⟨congrArg Rom.buffer hsame.rom, congrArg Rom.size hsame.rom, congrArg Rom.writeable hsame.rom, hsame.pal,
    hsame.japanese, fun ha => ?_⟩
  rw [busWrite, selectWrite_rom lanes ha, writeRow, wrRom, State.raise_diag]

/-- Settles O31: the addresses named are those of the read table's default row (`readUnmappedLogsInvalid`); the two tables
share their unmapped addresses. -/
theorem writeUnmappedLogsInvalid : Obligations.WriteUnmappedLogsInvalid := by
  intro s lanes a v hs ha
  have hunmapped : isUnmapped s.rom.size a = true :=
    (spells_of_decode (readUnmappedLogsInvalid s lanes a hs ha).1).wellFormed
  exact ⟨decode_encode hs (i := .wrInvalid lanes a v) hunmapped, rfl⟩

/-- Settles O22: the first row of the table; between the image's end and the buffer's `writeUnmappedLogsInvalid` applies. -/
theorem writeRomIsRejected : Obligations.WriteRomIsRejected := by
  intro s lanes a v
  refine ⟨fun ha => ⟨by rw [decode_write, selectWrite_rom lanes ha, Instr.ofWrite], rfl⟩, fun hrom hbuffer hcap => ?_⟩
  exact writeUnmappedLogsInvalid s lanes a v (by omega) (.inl ⟨hrom, by omega⟩)

/-- Settles O23: both lanes in secondary RAM's range are the row of the protocol error. -/
theorem writeSecondaryWordIsRejected : Obligations.WriteSecondaryWordIsRejected :=
  fun _ a v hs hlow hhigh => ⟨decode_encode hs (i := .wrSramW a v) ((inSecondaryRam_iff a).2 ⟨hlow, hhigh⟩), rfl⟩

/-- Settles O24: the row by `selectWrite_secondary`, the one cell stored by `wrSramB_eq`. -/
theorem writeSecondaryByteStoresLane : Obligations.WriteSecondaryByteStoresLane := by
  intro s lanes a v hs hlow hhigh hone
  have hexec := (exec_ofWrite lanes a v s .sramB).trans (congrArg answerNothing (wrSramB_eq lanes a v s))
  refine ⟨by rw [decode_write, selectWrite_secondary hs ⟨hlow, hhigh⟩ hone, Instr.ofWrite], _, hexec, ?_⟩
  rintro i rfl
  exact ⟨fun j hj => Memory.read_write_ne _ _ hj, fun hwf => Memory.read_write_same hwf _ _⟩

/-- Settles O25: the stubs' rows by `decode_encode`; each row's rule leaves the machine alone. -/
theorem stubWritesChangeNothing : Obligations.StubWritesChangeNothing :=
  fun _ lanes a v hs =>
    ⟨fun ha => ⟨decode_encode hs (i := .wrSound lanes a v) ((isSoundPort_iff a).2 ha), rfl⟩,
      decode_encode hs (i := .wrMemmode lanes v) rfl, rfl, decode_encode hs (i := .wrBusreq lanes v) rfl, rfl,
      decode_encode hs (i := .wrZ80rst lanes v) rfl, rfl, decode_encode hs (i := .wrHv lanes v) rfl, rfl,
      decode_encode hs (i := .wrPsg lanes v) rfl, rfl⟩

/-- Settles O26: the rows by `decode_encode`, each port's byte by `exec_writeJoyData`. -/
theorem writeJoypadDataIsMasked : Obligations.WriteJoypadDataIsMasked :=
  fun s lanes v hs =>
    ⟨decode_encode hs (i := .wrJoyData0 lanes v) rfl, exec_writeJoyData .p0 lanes v s,
      decode_encode hs (i := .wrJoyData1 lanes v) rfl, exec_writeJoyData .p1 lanes v s,
      decode_encode hs (i := .wrJoyData2 lanes v) rfl, exec_writeJoyData .p2 lanes v s⟩

/-- Settles O27: the rows by `decode_encode`, each port's byte by `exec_writeJoyCtrl`. -/
theorem writeJoypadControlIsVerbatim : Obligations.WriteJoypadControlIsVerbatim :=
  fun s lanes v hs =>
    ⟨decode_encode hs (i := .wrJoyCtrl0 lanes v) rfl, exec_writeJoyCtrl .p0 lanes v s,
      decode_encode hs (i := .wrJoyCtrl1 lanes v) rfl, exec_writeJoyCtrl .p1 lanes v s,
      decode_encode hs (i := .wrJoyCtrl2 lanes v) rfl, exec_writeJoyCtrl .p2 lanes v s⟩

/-- Settles O28: the one facade call by `vdpWriteData_spec`. -/
theorem writeVdpDataCallsFacade : Obligations.WriteVdpDataCallsFacade := by
  intro s lanes a v hs ha
  obtain ⟨e, p, hcall⟩ := vdpWriteData_spec v lanes s
  exact ⟨decode_encode hs (i := .wrVdpData lanes a v) ((isVdpDataPort_iff a).2 ha), e, p,
    (exec_ofWrite lanes a v s .vdpData).trans (congrArg answerNothing hcall)⟩

/-- Settles O30: the row by the work-RAM range, its cells by `wrWram_read_other` and `wrWram_read_requested`. -/
theorem writeWorkRamStoresLanes : Obligations.WriteWorkRamStoresLanes :=
  fun s lanes a v hs ha =>
    ⟨decode_encode hs (i := .wrWram lanes a v) ((inWorkRam_iff a).2 ha), (wrWram lanes a v s).workRam,
      (exec_ofWrite lanes a v s .wram).trans (congrArg answerNothing (wrWram_eq lanes a v s)),
      fun _ => wrWram_read_other v s, wrWram_read_requested lanes a v⟩
end

section
/-! PROOFS. The joypad protocol as a program uses it (42_joypad.md R193): two writes to port 0, then the read. -/

namespace Sys2Proof.Machine

/-- With `control = 0x40` a data write stores bit 6 of its byte and no other (42_joypad.md R188). -/
theorem lowByte_and_th (v : Word) : lowByte v &&& 0x40 = if v.getLsbD 6 then 0x40 else 0 := by
  have hth : (0x40 : Byte) = BitVec.twoPow 8 6 := rfl
  rw [hth, BitVec.and_twoPow, lowByte, BitVec.getLsbD_extractLsb']
  rfl

/-- The machine after the two writes of the protocol: port 0 holds the selected TH bit alone. -/
def afterProtocolWrites (v : Word) (s : State) : State :=
  { s with
    result := .nothing
    joypads := s.joypads.set .p0 { control := 0x40, data := if v.getLsbD 6 then 0x40 else 0 } }

/-- The control write of 0x40 and the data write, both on the low lane, lead to `afterProtocolWrites`. -/
theorem exec_protocolWrites (v : Word) (s : State) : ∃ t, exec (.wrJoyCtrl0 .low 0x0040) s = .next t ∧
    exec (.wrJoyData0 .low v) t = .next (afterProtocolWrites v s) := by
  refine ⟨_, exec_writeJoyCtrl .p0 .low 0x0040 s, (exec_writeJoyData .p0 .low v _).trans ?_⟩
  rw [afterProtocolWrites, ← lowByte_and_th]
  rfl

/-- A low-lane read of port 0: the word and the record of its queries, by the stored `data`. -/
theorem exec_readJoy0Data_low (s : State) : ∃ answer t, exec (.rdJoy0Data .low) s = .next t ∧
    t.result = .word (joinBytes 0 (s.joypads.p0.data ||| groupByte answer (selectedGroup s.joypads.p0.data))) ∧
    t.trace = s.trace ++ groupEvents none s.cfg.buttonIds answer (selectedGroup s.joypads.p0.data) := by
  obtain ⟨answer, e, hread⟩ := rdJoy0Data_answers none (lanes := .low) rfl s
  exact ⟨answer, _, (exec_ofRead .low 0 s .joy0Data).trans (congrArg answerWord hread), rfl, rfl⟩

/-- The TH bit above group 1's lines, as the low byte of the answered word. -/
theorem joinBytes_th_group1 (answer : Button → Bool) : joinBytes 0 (0x40 ||| groupByte answer group1) =
    0x00#8 ++ 0b01#2 ++ BitVec.ofBool (!answer .c) ++ BitVec.ofBool (!answer .b) ++ BitVec.ofBool (!answer .right) ++
      BitVec.ofBool (!answer .left) ++ BitVec.ofBool (!answer .down) ++ BitVec.ofBool (!answer .up) := by
  have hbits : ∀ c b right left down up : Bool,
      joinBytes 0 (0x40 ||| (0#2 ++ BitVec.ofBool c ++ BitVec.ofBool b ++ BitVec.ofBool right ++ BitVec.ofBool left ++
        BitVec.ofBool down ++ BitVec.ofBool up)) =
      0x00#8 ++ 0b01#2 ++ BitVec.ofBool c ++ BitVec.ofBool b ++ BitVec.ofBool right ++ BitVec.ofBool left ++
        BitVec.ofBool down ++ BitVec.ofBool up := by decide
  rw [groupByte_group1]
  exact hbits _ _ _ _ _ _

/-- No TH bit above group 0's lines, as the low byte of the answered word: bits 7, 6, 3 and 2 are 0. -/
theorem joinBytes_noTh_group0 (answer : Button → Bool) : joinBytes 0 (0 ||| groupByte answer group0) =
    0x00#8 ++ 0b00#2 ++ BitVec.ofBool (!answer .start) ++ BitVec.ofBool (!answer .a) ++ 0b00#2 ++
      BitVec.ofBool (!answer .down) ++ BitVec.ofBool (!answer .up) := by
  have hbits : ∀ start a down up : Bool,
      joinBytes 0 (0 ||| (0#2 ++ BitVec.ofBool start ++ BitVec.ofBool a ++ 0#2 ++ BitVec.ofBool down ++
        BitVec.ofBool up)) =
      0x00#8 ++ 0b00#2 ++ BitVec.ofBool start ++ BitVec.ofBool a ++ 0b00#2 ++ BitVec.ofBool down ++
        BitVec.ofBool up := by decide
  rw [groupByte_group0]
  exact hbits _ _ _ _

end Sys2Proof.Machine

open Sys2Proof Sys2Proof.Machine

/-- Settles O36: the two writes by `exec_protocolWrites`, the read by `exec_readJoy0Data_low`, each group's bits by
`joinBytes_th_group1` and `joinBytes_noTh_group0`. -/
theorem twoPhaseJoypadRead : Obligations.TwoPhaseJoypadRead := by
  intro s v
  obtain ⟨t, hctrl, hwrite⟩ := exec_protocolWrites v s
  obtain ⟨answer, t', hread, hresult, htrace⟩ := exec_readJoy0Data_low (afterProtocolWrites v s)
  refine ⟨t, _, t', hctrl, hwrite, hread, rfl, fun hth => ?_, fun hth => ?_⟩
  · have hdata : (afterProtocolWrites v s).joypads.p0.data = 0x40 := if_pos hth
    have hgroup : selectedGroup 0x40 = group1 := rfl
    rw [hdata, hgroup, joinBytes_th_group1] at hresult
    rw [hdata, hgroup] at htrace
    exact ⟨_, _, _, _, _, _, hresult, htrace⟩
  · have hdata : (afterProtocolWrites v s).joypads.p0.data = 0 := if_neg (Bool.eq_false_iff.1 hth)
    have hgroup : selectedGroup 0 = group0 := rfl
    rw [hdata, hgroup, joinBytes_noTh_group0] at hresult
    rw [hdata, hgroup] at htrace
    exact ⟨_, _, _, _, hresult, htrace⟩
end

section
/-! PROOFS. A standalone peek (43_vdp_peek.md R211 to R213): the row, the whole word that it answers, and its frame. -/

open Sys2Proof Sys2Proof.Machine

/-- Settles O38: the rows by `decode_encode`. The ROM word and its draw are those of a bus read of both lanes, by
`romWord_draws`; the work-RAM and the default row answer by definition, with R212's indices and R213's event. -/
theorem peeksAnswerFullWords : Obligations.PeeksAnswerFullWords := by
  intro s a hs
  refine ⟨fun hrom => ?_, fun hwork => ?_, fun hrom hwork => ?_⟩
  · obtain ⟨low, e, hword, hlow, henv⟩ := romWord_draws .both a s
    exact ⟨decode_encode hs (i := .peekRom a) (decide_eq_true hrom), low, e,
      (exec_ofPeek a s .rom).trans (congrArg answerWord hword), fun hin => ⟨hlow hin, henv (.inr hin)⟩⟩
  · exact ⟨decode_encode hs (i := .peekWram a) ((inWorkRam_iff a).2 hwork), rfl⟩
  · exact ⟨decode_encode hs (i := .peekInvalid a) ((wellFormed_peekInvalid _ a).2 ⟨hrom, hwork⟩), rfl⟩
end

section
/-! PROOFS. A joypad read inside a CPU call (42_joypad.md R182 to R186, R192): the row that the address selects, and the
row's queries under any callback. -/

namespace Sys2Proof.Machine

/-- Port 0's data address lies above every image that R10 admits, so its own row serves it. -/
theorem busRead_joy0Data (callback : Option Handle) (lanes : Lanes) {s : State} (hs : s.rom.size ≤ 0xA00000) :
    busRead callback lanes 0xA10002 s = rdJoy0Data callback lanes s := by
  have habove : ¬(0xA10002 : Addr).toNat < s.rom.size := by
    have haddr : (0xA10002 : Addr).toNat = 0xA10002 := rfl
    omega
  have hrow : selectRead s.rom.size (descriptor false false lanes 0xA10002) = .joy0Data := by
    rw [selectRead_descriptor, if_neg habove]
    simp
  rw [busRead, hrow, readRow]

end Sys2Proof.Machine

open Sys2Proof Sys2Proof.Machine

/-- Settles O37: the row by `busRead_joy0Data`, its queries and its byte by `rdJoy0Data_answers`. -/
theorem joypadReadAsksItsCallsCallback : Obligations.JoypadReadAsksItsCallsCallback := by
  intro s callback lanes hs
  rw [busRead_joy0Data callback lanes hs]
  refine ⟨fun hlow => by simp [rdJoy0Data, hlow], fun hlow hth => ?_, fun hlow hth => ?_⟩
  · obtain ⟨answer, e, hread⟩ := rdJoy0Data_answers callback hlow s
    have hgroup : selectedGroup s.joypads.p0.data = group1 := if_pos hth
    rw [hgroup, groupByte_group1] at hread
    exact ⟨_, _, _, _, _, _, e, hread⟩
  · obtain ⟨answer, e, hread⟩ := rdJoy0Data_answers callback hlow s
    have hgroup : selectedGroup s.joypads.p0.data = group0 := if_neg (Bool.eq_false_iff.1 hth)
    rw [hgroup, groupByte_group0] at hread
    exact ⟨_, _, _, _, e, hread⟩
end

section
/-! PROOFS. The cycle budget of a line (44_frame_driver.md R231, R232, R243). -/

namespace Sys2Proof.Machine

/-- The budget is the clocks of one frame divided by the product of the three other divisors. -/
theorem units_eq_frameClocks_div (p : Params) (pal : Bool) :
    units p pal = masterClock p pal / framesPerSecond pal / (p.linesPerFrame * p.cpuDiv * 2) := by
  rw [units, Nat.div_div_eq_div_mul _ p.linesPerFrame, Nat.div_div_eq_div_mul _ _ 2]

end Sys2Proof.Machine

open Sys2Proof Sys2Proof.Machine

/-- Settles O51: successive floor divisions are one division by the product. -/
theorem unitsAreOneDivision : Obligations.UnitsAreOneDivision := by
  intro p pal
  rw [units_eq_frameClocks_div, Nat.div_div_eq_div_mul, ← Nat.mul_assoc, ← Nat.mul_assoc]
  rfl

/-- Settles O52: a PAL frame has 1064068 clocks and an NTSC frame 894886, 169182 fewer, so a divisor up to 169182 goes
into the PAL frame at least once more. -/
theorem palBudgetIsLarger : Obligations.PalBudgetIsLarger := by
  intro p hpal hntsc hlines hdiv
  have hbudgetPal : units p true = 1064068 / (p.linesPerFrame * p.cpuDiv * 2) := by
    rw [units_eq_frameClocks_div, masterClock, if_pos rfl, hpal]
    rfl
  have hbudgetNtsc : units p false = 894886 / (p.linesPerFrame * p.cpuDiv * 2) := by
    rw [units_eq_frameClocks_div, masterClock, if_neg Bool.false_ne_true, hntsc]
    rfl
  rw [hbudgetPal, hbudgetNtsc]
  refine ⟨Nat.div_le_div_right (by decide), fun hproduct => ?_⟩
  have hpos : 0 < p.linesPerFrame * p.cpuDiv * 2 := by positivity
  calc 894886 / (p.linesPerFrame * p.cpuDiv * 2)
      < 894886 / (p.linesPerFrame * p.cpuDiv * 2) + 1 := Nat.lt_succ_self _
    _ = (894886 + p.linesPerFrame * p.cpuDiv * 2) / (p.linesPerFrame * p.cpuDiv * 2) :=
        (Nat.add_div_right _ hpos).symm
    _ ≤ 1064068 / (p.linesPerFrame * p.cpuDiv * 2) := Nat.div_le_div_right (by omega)
end

section
/-! PROOFS. What a frame records (44_frame_driver.md R230, R233 to R237, R239, R241): the sequencer's own calls, and the
callback that every query made inside them goes to. -/

namespace Sys2Proof.Machine

/-- The event is no query to another callback. -/
def Event.asksOnly (callback : Option Handle) : Event → Bool
  | .query c _ _ _ => c == callback
  | _ => true

/-- From `s` to `t` the sequencer made exactly these calls, in this order, and every query went to `callback`. -/
def RecordsCalls (callback : Option Handle) (calls : List Event) (s t : State) : Prop :=
  ∃ tr, t.trace = s.trace ++ tr ∧ tr.filter isSequencerCall = calls ∧ ∀ ev ∈ tr, ev.asksOnly callback = true

section
variable {callback : Option Handle} {s t u : State}

theorem RecordsCalls.trans {calls calls' : List Event} (h : RecordsCalls callback calls s t)
    (k : RecordsCalls callback calls' t u) : RecordsCalls callback (calls ++ calls') s u := by
  obtain ⟨tr, htrace, rfl, hasks⟩ := h
  obtain ⟨tr', htrace', rfl, hasks'⟩ := k
  refine ⟨tr ++ tr', by rw [htrace', htrace, List.append_assoc], List.filter_append .., fun ev hev => ?_⟩
  exact (List.mem_append.1 hev).elim (hasks ev) (hasks' ev)

theorem recordsCalls_of_trace_eq (h : t.trace = s.trace) : RecordsCalls callback [] s t :=
  ⟨[], by rw [h, List.append_nil], rfl, by simp⟩

theorem recordsCalls_refl (s : State) : RecordsCalls callback [] s s := recordsCalls_of_trace_eq rfl

theorem recordsCalls_emit (s : State) {e : Event} (h : e.asksOnly callback = true) :
    RecordsCalls callback ([e].filter isSequencerCall) s (s.emit e) :=
  ⟨[e], rfl, rfl, by simpa using h⟩

/-! ### A transaction makes none of the sequencer's calls -/

theorem recordsCalls_query (button : Button) (s : State) :
    RecordsCalls callback [] s (query callback button s).2 := by
  obtain ⟨q, e, hquery⟩ := query_spec callback button s
  rw [hquery]
  exact recordsCalls_emit s (e := .query callback button (s.cfg.buttonIds.token button) q) BEq.rfl

theorem recordsCalls_buttonTerm (group : List (Button × Nat)) :
    ∀ s : State, RecordsCalls callback [] s (buttonTerm callback group s).2 := by
  induction group with
  | nil => exact recordsCalls_refl
  | cons x rest ih => exact fun s => (recordsCalls_query x.1 s).trans (ih _)

theorem recordsCalls_readRow (lanes : Lanes) (a : Addr) (s : State) (r : ReadRow) :
    RecordsCalls callback [] s (readRow callback lanes a s r).2 := by
  cases r with
  | rom =>
    obtain ⟨low, e, hread⟩ := romWord_spec lanes a s
    rw [readRow, rdRom, hread]
    exact recordsCalls_refl s
  | sramB =>
    rw [readRow, rdSramB_eq]
    exact recordsCalls_refl s
  | joy0Data =>
    rw [readRow, rdJoy0Data]
    split
    · exact recordsCalls_buttonTerm _ s
    · exact recordsCalls_refl s
  | joyCtrl n =>
    rw [readRow, rdJoyCtrl_eq]
    exact recordsCalls_refl s
  | vdpData =>
    obtain ⟨w, e, v, hread⟩ := rdVdpData_spec lanes s
    rw [readRow, hread]
    exact recordsCalls_emit s rfl
  | vdpCtrl =>
    obtain ⟨w, e, v, hread⟩ := rdVdpCtrl_spec lanes s
    rw [readRow, hread]
    exact recordsCalls_emit s rfl
  | sramW | sound | joy12Data | memmode | busreq | z80rst | hv | psg | wram | invalid => exact recordsCalls_refl s

theorem recordsCalls_vdpWriteCtrl (v : Word) (lanes : Lanes) (s : State) :
    RecordsCalls callback [] s (vdpWriteCtrl v lanes s) := by
  obtain ⟨work, e, hdraw, -⟩ := drawPeekWork_spec (s.emit (.vdpWriteCtrl v lanes))
  obtain ⟨ps, -, htrace, -⟩ := runPeeks_trace work ((s.emit (.vdpWriteCtrl v lanes)).setEnv e)
  have hpeeks : RecordsCalls callback [] ((s.emit (.vdpWriteCtrl v lanes)).setEnv e)
      (runPeeks work ((s.emit (.vdpWriteCtrl v lanes)).setEnv e)) :=
    ⟨_, htrace, List.filter_eq_nil_iff.2 (List.forall_mem_map.2 fun _ _ => Bool.false_ne_true),
      List.forall_mem_map.2 fun _ _ => rfl⟩
  simp only [vdpWriteCtrl, hdraw]
  exact (recordsCalls_emit s rfl).trans hpeeks

theorem recordsCalls_writeRow (lanes : Lanes) (a : Addr) (v : Word) (s : State) (r : WriteRow) :
    RecordsCalls callback [] s (writeRow lanes a v s r) := by
  rcases writeRow_cases lanes a v s r with h | ⟨d, h⟩ | ⟨i, b, -, h⟩ | ⟨i, b, j, c, -, -, h⟩ | ⟨i, b, -, h⟩ |
    ⟨n, p, h⟩ | h | h <;> rw [h]
  · exact recordsCalls_refl s
  · exact recordsCalls_of_trace_eq rfl
  · exact recordsCalls_of_trace_eq rfl
  · exact recordsCalls_of_trace_eq rfl
  · exact recordsCalls_of_trace_eq rfl
  · exact recordsCalls_of_trace_eq rfl
  · exact recordsCalls_emit s rfl
  · exact recordsCalls_vdpWriteCtrl v lanes s

theorem recordsCalls_serve (q : BusRequest) (s : State) : RecordsCalls callback [] s (serve callback q s) := by
  unfold serve
  split
  · exact (recordsCalls_readRow q.lanes q.addr s _).trans (recordsCalls_emit _ rfl)
  · exact (recordsCalls_writeRow q.lanes q.addr _ s _).trans (recordsCalls_emit _ rfl)

theorem recordsCalls_serveAll (qs : List BusRequest) :
    ∀ s : State, RecordsCalls callback [] s (serveAll callback qs s) := by
  induction qs with
  | nil => exact recordsCalls_refl
  | cons q rest ih => exact fun s => (recordsCalls_serve q s).trans (ih _)

/-- A CPU call is one call of the sequencer, whatever transactions the CPU issues inside it. -/
theorem recordsCalls_cpuCall {e : Event} (hcall : isSequencerCall e = true) (hasks : e.asksOnly callback = true)
    (s : State) : RecordsCalls callback [e] s (cpuCall e callback s) := by
  obtain ⟨qs, v, hserve⟩ := cpuCall_spec e callback s
  have hemit := recordsCalls_emit s hasks
  rw [List.filter_singleton, hcall] at hemit
  rw [hserve]
  exact hemit.trans (recordsCalls_serveAll qs _)

/-- The test of an interrupt-enable flag, and the request where the flag was true (R236, R237). -/
theorem recordsCalls_request {test : Event} (hcall : isSequencerCall test = true)
    (hasks : test.asksOnly callback = true) (htest : t.trace = s.trace ++ [test]) (flag : Bool) (level : IntLevel) :
    RecordsCalls callback (test :: if flag then [.cpuInterrupt level] else []) s
      (if flag then cpuInterrupt level callback t else t) := by
  have hrecord : RecordsCalls callback [test] s t :=
    ⟨[test], htest, by rw [List.filter_singleton, hcall]; rfl, by simpa using hasks⟩
  cases flag with
  | false => exact hrecord
  | true => exact hrecord.trans (recordsCalls_cpuCall rfl rfl t)

end

/-! ### The calls of a line and of the frame's end (R233 to R237) -/

section
variable (cb : Callbacks)

theorem recordsCalls_stepTo (p : Position) (s : State) :
    RecordsCalls (some cb.inputQuery) [.cpuStep] s (stepTo cb p s) :=
  recordsCalls_cpuCall rfl rfl s

theorem recordsCalls_runUnits (l n : Nat) : ∀ (u : Nat) (s : State),
    RecordsCalls (some cb.inputQuery) (List.replicate (2 * n) .cpuStep) s (runUnits cb l n u s) := by
  induction n with
  | zero => exact fun _ => recordsCalls_refl
  | succ n ih =>
    exact fun u s => ((recordsCalls_stepTo cb _ s).trans (recordsCalls_stepTo cb _ _)).trans (ih (u + 1) _)

theorem recordsCalls_hintTest (s : State) : ∃ hint,
    RecordsCalls (some cb.inputQuery) (.vdpHintEnabled hint :: if hint then [.cpuInterrupt .level4] else []) s
      (hintTest cb s) := by
  obtain ⟨hint, e, v, r, rfl, -, htest⟩ := hintTest_spec cb s
  rw [htest]
  exact ⟨hint, recordsCalls_request rfl rfl rfl hint .level4⟩

theorem recordsCalls_vintTest (s : State) : ∃ vint,
    RecordsCalls (some cb.inputQuery) (endCalls vint) s (vintTest cb s) := by
  obtain ⟨vint, e, v, r, rfl, -, htest⟩ := vintTest_spec cb s
  rw [htest]
  exact ⟨vint, recordsCalls_request rfl rfl rfl vint .level6⟩

theorem recordsCalls_endFrame (s : State) : ∃ vint,
    RecordsCalls (some cb.inputQuery) (endCalls vint) s (endFrame cb s) := recordsCalls_vintTest cb s

theorem recordsCalls_vdpRender (l : Nat) (s : State) :
    RecordsCalls (some cb.inputQuery) [.vdpRender l cb.scanline] s (vdpRender l cb.scanline s) := by
  obtain ⟨image, e, v, hrender⟩ := vdpRender_spec l cb.scanline s
  rw [hrender]
  exact (recordsCalls_emit s rfl).trans (recordsCalls_emit _ rfl)

theorem recordsCalls_lineBody (U l : Nat) (s : State) : ∃ hint,
    RecordsCalls (some cb.inputQuery) (lineCalls U cb.scanline l hint) s (lineBody cb U l s) := by
  obtain ⟨hint, hhint⟩ := recordsCalls_hintTest cb (vdpRender l cb.scanline (runUnits cb l U 0 s))
  have hline := ((recordsCalls_runUnits cb l U 0 s).trans (recordsCalls_vdpRender cb l _)).trans hhint
  rw [List.append_assoc] at hline
  refine ⟨hint, ?_⟩
  rw [lineCalls, List.append_assoc]
  exact hline

theorem recordsCalls_runLines (U n : Nat) : ∀ (l : Nat) (s : State), ∃ hints : List Bool, hints.length = n ∧
    RecordsCalls (some cb.inputQuery) (linesCalls U cb.scanline l hints) s (runLines cb U n l s) := by
  induction n with
  | zero => exact fun _ s => ⟨[], rfl, recordsCalls_refl s⟩
  | succ n ih =>
    intro l s
    obtain ⟨hint, hline⟩ := recordsCalls_lineBody cb U l s
    obtain ⟨hints, hlength, hlines⟩ := ih (l + 1) (lineBody cb U l s)
    exact ⟨hint :: hints, congrArg Nat.succ hlength, hline.trans hlines⟩

/-- The frame's calls are those of its lines and of its end. -/
theorem recordsCalls_runFrame (s : State) : ∃ (hints : List Bool) (vint : Bool), hints.length = s.cfg.visibleLines ∧
    RecordsCalls (some cb.inputQuery) (linesCalls (units s.cfg s.pal) cb.scanline 0 hints ++ endCalls vint) s
      (runFrame cb s) := by
  obtain ⟨hints, hlength, hlines⟩ :=
    recordsCalls_runLines cb (units s.cfg s.pal) s.cfg.visibleLines 0 (startFrame s)
  obtain ⟨vint, hend⟩ := recordsCalls_endFrame cb (runLines cb (units s.cfg s.pal) s.cfg.visibleLines 0 (startFrame s))
  exact ⟨hints, vint, hlength, hlines.trans hend⟩

end

/-! ### Counting the calls (R241) -/

section
variable (U : Nat) (scb : Handle)

theorem count_cpuStep_linesCalls (hints : List Bool) : ∀ l : Nat,
    (linesCalls U scb l hints).count .cpuStep = 2 * U * hints.length := by
  induction hints with
  | nil => exact fun _ => rfl
  | cons hint rest ih =>
    intro l
    have hline : (lineCalls U scb l hint).count .cpuStep = 2 * U := by cases hint <;> simp [lineCalls]
    rw [linesCalls, List.count_append, hline, ih, List.length_cons]
    ring

theorem count_level4_linesCalls (hints : List Bool) : ∀ l : Nat,
    (linesCalls U scb l hints).count (.cpuInterrupt .level4) ≤ hints.length := by
  induction hints with
  | nil => exact fun _ => Nat.le_refl 0
  | cons hint rest ih =>
    intro l
    have hline : (lineCalls U scb l hint).count (.cpuInterrupt .level4) ≤ 1 := by
      cases hint <;> simp [lineCalls, List.count_replicate]
    have hrest := ih (l + 1)
    rw [linesCalls, List.count_append, List.length_cons]
    omega

theorem renderedLines_linesCalls (hints : List Bool) : ∀ l : Nat,
    (linesCalls U scb l hints).filterMap renderedLine = List.range' l hints.length := by
  induction hints with
  | nil => exact fun _ => rfl
  | cons hint rest ih =>
    intro l
    have hline : (lineCalls U scb l hint).filterMap renderedLine = [l] := by
      cases hint <;> simp [lineCalls, renderedLine, List.filterMap_cons, List.filterMap_replicate]
    rw [linesCalls, List.filterMap_append, hline, ih]
    rfl

theorem level6_notMem_linesCalls (hints : List Bool) : ∀ l : Nat,
    .cpuInterrupt .level6 ∉ linesCalls U scb l hints := by
  induction hints with
  | nil => exact fun _ => List.not_mem_nil
  | cons hint rest ih =>
    intro l
    have hline : .cpuInterrupt .level6 ∉ lineCalls U scb l hint := by cases hint <;> simp [lineCalls]
    rw [linesCalls, List.mem_append]
    exact not_or.2 ⟨hline, ih (l + 1)⟩

end

/-- The renders of a record are among the sequencer's calls. -/
theorem renderedLines_filter (tr : List Event) :
    (tr.filter isSequencerCall).filterMap renderedLine = tr.filterMap renderedLine := by
  rw [List.filterMap_filter]
  refine List.filterMap_congr fun e _ => ?_
  cases e <;> rfl

/-- No level-4 request follows a level-6 request in a record whose calls are a frame's: the lines request no level 6, and
the end requests no level 4. -/
theorem level4_notMem_after_level6 {tr : List Event} {U : Nat} {scb : Handle} {hints : List Bool} {vint : Bool}
    (hcalls : tr.filter isSequencerCall = linesCalls U scb 0 hints ++ endCalls vint) {before after : List Event}
    (htr : tr = before ++ .cpuInterrupt .level6 :: after) : .cpuInterrupt .level4 ∉ after := by
  intro hafter
  have hsub : List.Sublist [.cpuInterrupt .level6, .cpuInterrupt .level4] tr := by
    rw [htr]
    exact ((List.singleton_sublist.2 hafter).cons_cons _).trans (List.sublist_append_right _ _)
  have hkept : List.Sublist [.cpuInterrupt .level6, .cpuInterrupt .level4]
      (linesCalls U scb 0 hints ++ endCalls vint) := hcalls ▸ hsub.filter isSequencerCall
  obtain ⟨inLines, inEnd, hsplit, hlines, hend⟩ := List.sublist_append_iff.1 hkept
  cases inLines with
  | nil =>
    rw [List.nil_append] at hsplit
    have hmem : .cpuInterrupt .level4 ∈ endCalls vint := hend.subset (by simp [← hsplit])
    cases vint <;> simp [endCalls] at hmem
  | cons e rest =>
    obtain ⟨rfl, -⟩ := List.cons.inj hsplit
    exact level6_notMem_linesCalls U scb hints 0 (hlines.subset (by simp))

end Sys2Proof.Machine

open Sys2Proof Sys2Proof.Machine

/-- Settles O47: the calls are counted in `recordsCalls_runFrame`'s list, line by line. -/
theorem frameCallCounts : Obligations.FrameCallCounts := by
  intro s scb iqc hseq hinit
  obtain ⟨hints, vint, hlength, tr, htrace, hcalls, -⟩ := recordsCalls_runFrame ⟨scb, iqc⟩ s
  have hcount : ∀ e, isSequencerCall e = true → tr.count e =
      (linesCalls (units s.cfg s.pal) scb 0 hints).count e + (endCalls vint).count e := fun e he => by
    rw [← List.count_append, ← hcalls, List.count_filter he]
  refine ⟨_, tr, exec_runFrame scb iqc hseq hinit, rfl, rfl, htrace, ?_, ?_, ?_, ?_,
    fun _ _ => level4_notMem_after_level6 hcalls⟩
  · rw [hcount _ rfl, count_cpuStep_linesCalls, hlength]
    cases vint <;> simp [endCalls]
  · rw [← renderedLines_filter, hcalls, List.filterMap_append, renderedLines_linesCalls, hlength, List.range_eq_range']
    cases vint <;> simp [endCalls, renderedLine]
  · have hlines := count_level4_linesCalls (units s.cfg s.pal) scb hints 0
    have hend : (endCalls vint).count (.cpuInterrupt .level4) = 0 := by cases vint <;> simp [endCalls]
    rw [hcount _ rfl]
    omega
  · have hlines := List.count_eq_zero.2 (level6_notMem_linesCalls (units s.cfg s.pal) scb hints 0)
    have hend : (endCalls vint).count (.cpuInterrupt .level6) ≤ 1 := by cases vint <;> simp [endCalls]
    rw [hcount _ rfl]
    omega

/-- Settles O48: the calls and the callback of the queries are `recordsCalls_runFrame`'s. -/
theorem frameCallTrace : Obligations.FrameCallTrace := by
  intro s scb iqc hseq hinit
  obtain ⟨hints, vint, hlength, tr, htrace, hcalls, hasks⟩ := recordsCalls_runFrame ⟨scb, iqc⟩ s
  refine ⟨_, tr, hints, vint, exec_runFrame scb iqc hseq hinit, htrace, hlength, hcalls, ?_⟩
  intro callback button token pressed hquery
  exact eq_of_beq (hasks _ hquery)

/-- Settles O50: `advanceMany_startFrame`, which is by induction over the lines and their units; the frame's end moves to
`DONE`. -/
theorem runFrameFollowsPositionTable : Obligations.RunFrameFollowsPositionTable :=
  fun cb s => ⟨advanceMany_startFrame cb s, rfl⟩

/-- Settles O60: `RUN_FRAME` writes no configuration itself, and neither does what it serves. -/
theorem frameKeepsConfiguration : Obligations.FrameKeepsConfiguration :=
  fun _ _ _ _ h => (servedFrom_exec rfl h).configuration
end

section
/-! PROOFS. The host operations (45_lifecycle.md R260 to R269, 70_reset_and_hazards.md R320): refused while a frame runs,
and outside a frame what each stores or refuses. -/

namespace Sys2Proof.Machine

/-! ### A host operation outside and inside a frame (R269, D19) -/

/-- What a host operation does where no frame runs. -/
def runHostOp : HostOp → State → Host.Outcome State Fault Refusal
  | .init, s => if s.initialised then .refused .secondInit else answerNothing (initialise s)
  | .reset, s => if s.initialised then answerNothing (cpuReset none s) else .refused .notInitialised
  | .installRom bytes length, s =>
    if bytes.length < length then .refused .romBufferTooShort else answerNothing (installRom bytes length s)
  | .setRomWriteable b, s => answerNothing (s.setRom { s.rom with writeable := hostFlag b })
  | .setPal b, s => answerNothing { s with pal := hostFlag b }
  | .setJapanese b, s => answerNothing { s with japanese := hostFlag b }
  | .runFrame scb iqc, s =>
    if s.initialised then answerNothing ((runFrame ⟨scb, iqc⟩ s).moveTo none) else .refused .notInitialised
  | .stateSize, s => .next (s.answer (.size s.cfg.stateSize))

theorem exec_hostOp (op : HostOp) (s : State) : exec op.instr s = hostCall s (runHostOp op) := by
  cases op <;> rfl

theorem exec_hostOp_of_seq_none (op : HostOp) {s : State} (hseq : s.seq = none) :
    exec op.instr s = runHostOp op s := by
  simp [exec_hostOp, hostCall, hseq]

theorem exec_hostOp_of_seq_some (op : HostOp) {s : State} {p : Position} (hseq : s.seq = some p) :
    exec op.instr s = .refused .reentered := by
  simp [exec_hostOp, hostCall, hseq]

/-! ### The installed image (R260, R261) -/

/-- The buffer after an image's first `length` bytes were copied in from index 0. -/
def Rom.installed (r : Rom) (bytes : List Byte) (length : Nat) : Memory := r.buffer.copyIn 0 (bytes.take length)

theorem installRom_of_le {s : State} {length : Nat} (h : length ≤ s.cfg.romCapacity) (bytes : List Byte) :
    installRom bytes length s = s.setRom ⟨s.rom.installed bytes length, length, s.rom.writeable⟩ :=
  if_neg (not_lt.2 h)

theorem installRom_of_lt {s : State} {length : Nat} (h : s.cfg.romCapacity < length) (bytes : List Byte) :
    installRom bytes length s = s.raise (.oversizedRom length) :=
  if_pos h

/-- Bytes at and above `length` are kept. -/
theorem Rom.read_installed_above (r : Rom) (bytes : List Byte) {length i : Nat} (h : length ≤ i) :
    (r.installed bytes length).read i = r.buffer.read i := by
  have htaken : (bytes.take length).length ≤ length := List.length_take_le ..
  exact Memory.read_copyIn_outside _ _ _ (.inr (by omega))

/-- Bytes below `length` are the image's, where the image fits the buffer. -/
theorem Rom.read_installed_below {r : Rom} {capacity : Nat} (hwf : r.buffer.wf capacity = true) {bytes : List Byte}
    {length : Nat} (hbytes : length ≤ bytes.length) (hfits : length ≤ capacity) {i : Nat} (hi : i < length) :
    some ((r.installed bytes length).read i) = bytes[i]? := by
  have htaken : (bytes.take length).length = length := List.length_take_of_le hbytes
  have hread := Memory.read_copyIn_inside (bytes.take length) hwf (i := 0) (by omega) i (by omega)
  rw [Nat.zero_add, List.getElem_take] at hread
  rw [Rom.installed, hread, List.getElem?_eq_getElem]

theorem exec_installRom_of_le {s : State} (hseq : s.seq = none) {bytes : List Byte} {length : Nat}
    (hbytes : length ≤ bytes.length) :
    exec (.installRom bytes length) s = answerNothing (installRom bytes length s) :=
  (exec_hostOp_of_seq_none (.installRom bytes length) hseq).trans (if_neg (not_lt.2 hbytes))

/-! ### The flags (R262 to R264) -/

theorem hostFlag_eq_decide (b : Int) : hostFlag b = decide (b ≠ 0) := by
  rw [hostFlag, bne, beq_eq_decide, decide_not]

end Sys2Proof.Machine

open Sys2Proof Sys2Proof.Machine

/-- Settles O42: `installRom_of_le` with the bytes of the installed buffer, or `installRom_of_lt`. -/
theorem installRomCopiesOrLogs : Obligations.InstallRomCopiesOrLogs := by
  intro s bytes length hseq hbytes
  rw [exec_installRom_of_le hseq hbytes]
  refine ⟨fun hfits => ⟨s.rom.installed bytes length, ?_, fun i => s.rom.read_installed_above bytes,
    fun hwf i => Rom.read_installed_below hwf hbytes hfits⟩, fun hover => ?_⟩
  · rw [installRom_of_le hfits]
    rfl
  · rw [installRom_of_lt hover]
    rfl

/-- Settles O43: outside a frame each setter stores `hostFlag b`. -/
theorem settersStoreTheirFlag : Obligations.SettersStoreTheirFlag := by
  intro s b hseq
  rw [← hostFlag_eq_decide]
  exact ⟨exec_hostOp_of_seq_none (.setRomWriteable b) hseq, exec_hostOp_of_seq_none (.setPal b) hseq,
    exec_hostOp_of_seq_none (.setJapanese b) hseq⟩

/-- Settles O44: outside a frame the call runs, and it reads the parameter alone. -/
theorem stateSizeAnswersParameter : Obligations.StateSizeAnswersParameter :=
  fun _ hseq => exec_hostOp_of_seq_none .stateSize hseq

/-- Settles O45: inside a frame by `exec_hostOp_of_seq_some`, outside one by the operation's own check. -/
theorem brokenHostDutiesAreRefused : Obligations.BrokenHostDutiesAreRefused := by
  intro s bytes length b scb iqc
  refine ⟨fun p hseq => ?_, fun hseq => ⟨fun hinit => ?_, fun hinit => ?_, fun hshort => ?_⟩⟩
  · change ∀ i ∈ [HostOp.init, .reset, .installRom bytes length, .setRomWriteable b, .setPal b, .setJapanese b,
      .runFrame scb iqc, .stateSize].map HostOp.instr, exec i s = .refused .reentered
    exact List.forall_mem_map.2 fun op _ => exec_hostOp_of_seq_some op hseq
  · exact (exec_hostOp_of_seq_none .init hseq).trans (if_pos hinit)
  · have hnot : ¬s.initialised = true := Bool.eq_false_iff.1 hinit
    exact ⟨(exec_hostOp_of_seq_none .reset hseq).trans (if_neg hnot),
      (exec_hostOp_of_seq_none (.runFrame scb iqc) hseq).trans (if_neg hnot)⟩
  · exact (exec_hostOp_of_seq_none (.installRom bytes length) hseq).trans (if_pos hshort)
end

section
/-! PROOFS. How many diagnostics one transaction logs (60_exceptions.md R286). -/

namespace Sys2Proof.Machine

/-- From `s` to `t` the log grew by at most one event. -/
def LogsAtMostOne (s t : State) : Prop := ∃ ds, t.diag = s.diag ++ ds ∧ ds.length ≤ 1

theorem logsAtMostOne_of_diag_eq {s t : State} (h : t.diag = s.diag) : LogsAtMostOne s t :=
  ⟨[], by rw [h, List.append_nil], Nat.zero_le 1⟩

theorem logsAtMostOne_refl (s : State) : LogsAtMostOne s s := logsAtMostOne_of_diag_eq rfl

theorem logsAtMostOne_raise (s : State) (d : Diag) : LogsAtMostOne s (s.raise d) := ⟨[d], rfl, Nat.le_refl 1⟩

/-- A read logs where its row is a protocol error (R103) or the default row (R117), and nowhere else. -/
theorem logsAtMostOne_readRow (callback : Option Handle) (lanes : Lanes) (a : Addr) (s : State) (r : ReadRow) :
    LogsAtMostOne s (readRow callback lanes a s r).2 := by
  cases r with
  | sramW | invalid => exact logsAtMostOne_raise s _
  | rom =>
    obtain ⟨low, e, hread⟩ := romWord_spec lanes a s
    rw [readRow, rdRom, hread]
    exact logsAtMostOne_of_diag_eq rfl
  | sramB =>
    rw [readRow, rdSramB_eq]
    exact logsAtMostOne_refl s
  | joy0Data =>
    rw [readRow, rdJoy0Data]
    split
    · exact logsAtMostOne_of_diag_eq (buttonTerm_keeps callback (selectedGroup s.joypads.p0.data) s).1
    · exact logsAtMostOne_refl s
  | joyCtrl n =>
    rw [readRow, rdJoyCtrl_eq]
    exact logsAtMostOne_refl s
  | vdpData =>
    obtain ⟨w, e, v, hread⟩ := rdVdpData_spec lanes s
    rw [readRow, hread]
    exact logsAtMostOne_of_diag_eq rfl
  | vdpCtrl =>
    obtain ⟨w, e, v, hread⟩ := rdVdpCtrl_spec lanes s
    rw [readRow, hread]
    exact logsAtMostOne_of_diag_eq rfl
  | sound | joy12Data | memmode | busreq | z80rst | hv | psg | wram => exact logsAtMostOne_refl s

/-- The one event of a peek is that of an address no row maps (`peek_diag`). -/
theorem logsAtMostOne_peek (a : Addr) (s : State) : LogsAtMostOne s (peek a s).2 := by
  refine ⟨_, peek_diag a s, ?_⟩
  split
  · exact Nat.le_refl 1
  · exact Nat.zero_le 1

/-- A write logs where its row rejects it (R142, R143, R156); the VDP control port's row, whose peeks log each for
themselves, is apart. -/
theorem logsAtMostOne_writeRow (lanes : Lanes) (a : Addr) (v : Word) (s : State) {r : WriteRow} (hr : r ≠ .vdpCtrl) :
    LogsAtMostOne s (writeRow lanes a v s r) := by
  cases r with
  | vdpCtrl => exact absurd rfl hr
  | rom | sramW | invalid => exact logsAtMostOne_raise s _
  | sramB =>
    rw [writeRow, wrSramB_eq]
    exact logsAtMostOne_of_diag_eq rfl
  | joyData n =>
    rw [writeRow, wrJoyData]
    split <;> exact logsAtMostOne_of_diag_eq rfl
  | joyCtrl n =>
    rw [writeRow, wrJoyCtrl]
    split <;> exact logsAtMostOne_of_diag_eq rfl
  | vdpData => exact logsAtMostOne_of_diag_eq rfl
  | wram =>
    rw [writeRow, wrWram_eq]
    exact logsAtMostOne_of_diag_eq rfl
  | sound | memmode | busreq | z80rst | hv | psg => exact logsAtMostOne_refl s

/-- Only the control port's two addresses take its row: the row admits no others. -/
theorem selectWrite_ne_vdpCtrl (size : Nat) (lanes : Lanes) {a : Addr} (h4 : a ≠ 0xC00004) (h6 : a ≠ 0xC00006) :
    selectWrite size (descriptor false true lanes a) ≠ .vdpCtrl := by
  intro hrow
  have hport := (spells_selectWrite size lanes a 0).wellFormed
  rw [hrow] at hport
  exact ((isVdpCtrlPort_iff a).1 hport).elim h4 h6

end Sys2Proof.Machine

open Sys2Proof Sys2Proof.Machine

/-- Settles O59: by the rows of the three tables; a write elsewhere than to the control port takes another row. -/
theorem transactionsLogAtMostOnce : Obligations.TransactionsLogAtMostOnce :=
  fun callback lanes a v s =>
    ⟨logsAtMostOne_readRow callback lanes a s _, logsAtMostOne_peek a s, fun _ h4 h6 =>
      logsAtMostOne_writeRow lanes a v s (selectWrite_ne_vdpCtrl s.rom.size lanes h4 h6)⟩
end

section
/-! PROOFS. `INIT`, `RESET` and the boot order (70_reset_and_hazards.md R320 to R323). -/

namespace Sys2Proof.Machine

/-! ### `INIT` (R320) -/

/-- What `INIT` does: the VDP's init, the store as `INIT_ZEROES_STORE` says (R39), and the log cleared. -/
theorem initialise_cases (s : State) :
    (s.cfg.initZeroesStore = true ∧
      initialise s = { zeroStore (vdpInit s) with diag := [], initialised := true }) ∨
    (s.cfg.initZeroesStore = false ∧
      initialise s = { drawStore (vdpInit s) with diag := [], initialised := true }) := by
  unfold initialise
  dsimp only
  split
  · next hz => exact .inl ⟨hz, rfl⟩
  · next hz => exact .inr ⟨Bool.eq_false_iff.2 hz, rfl⟩

/-- The drawn size keeps the bound of 10_state.md R22 (log 14). -/
theorem drawStore_romSize_le (s : State) : (drawStore s).rom.size ≤ s.cfg.romCapacity :=
  Nat.le_of_lt_succ (Nat.mod_lt _ (Nat.succ_pos _))

theorem exec_init {s : State} (hseq : s.seq = none) (hinit : s.initialised = false) :
    exec .init s = .next ((initialise s).answer .nothing) :=
  (exec_hostOp_of_seq_none .init hseq).trans (if_neg (Bool.eq_false_iff.1 hinit))

/-! ### Transactions that only read (R321) -/

theorem sameStore_serve_read (callback : Option Handle) {q : BusRequest} (hread : q.op = .read) (s : State) :
    SameStore s (serve callback q s) := by
  rw [serve, hread]
  exact (sameStore_busRead callback q.lanes q.addr s).trans (sameStore_emit _ _)

theorem sameStore_serveAll_reads (callback : Option Handle) {qs : List BusRequest} :
    (∀ q ∈ qs, q.op = .read) → ∀ s : State, SameStore s (serveAll callback qs s) := by
  induction qs with
  | nil => exact fun _ => SameStore.refl
  | cons q rest ih =>
    intro hreads s
    obtain ⟨hq, hrest⟩ := List.forall_mem_cons.1 hreads
    exact (sameStore_serve_read callback hq s).trans (ih hrest _)

/-! ### Steps of the boot order (R323) -/

theorem run_succ_of_step {s t : State} (h : step s = .next t) (k : Nat) :
    Host.Core.run core (k + 1) s = Host.Core.run core k t := by
  have hcore : core.step s = .next t := h
  simp only [Host.Core.run, hcore]

/-- `INIT` has run, no frame runs, and `queue` is still to be served. -/
structure Ready (queue : List Request) (s : State) : Prop where
  seq         : s.seq = none
  initialised : s.initialised = true
  pending     : s.pending = queue

section

variable {s : State} {rest : List Request}

theorem step_hostOp {op : HostOp} (hseq : s.seq = none) (hpending : s.pending = .host op :: rest) :
    step s = runHostOp op { s with pending := rest } :=
  (step_decoded hpending rfl).trans (exec_hostOp_of_seq_none op hseq)

theorem step_init (hseq : s.seq = none) (hinit : s.initialised = false) (hpending : s.pending = .host .init :: rest) :
    ∃ t, step s = .next t ∧ Ready rest t ∧ t.cfg = s.cfg := by
  refine ⟨_, (step_decoded hpending rfl).trans (exec_init hseq hinit), ?_, initialise_cfg _⟩
  obtain ⟨-, h⟩ | ⟨-, h⟩ := initialise_cases { s with pending := rest } <;> rw [h] <;> exact ⟨hseq, rfl, rfl⟩

theorem Ready.step_installRom {bytes : List Byte} {length : Nat}
    (h : Ready (.host (.installRom bytes length) :: rest) s) (hbytes : length ≤ bytes.length) :
    ∃ t, step s = .next t ∧ Ready rest t ∧ (length ≤ s.cfg.romCapacity → t.rom.size = length) := by
  refine ⟨_, (step_hostOp h.seq h.pending).trans (if_neg (not_lt.2 hbytes)), ?_⟩
  rcases Nat.lt_or_ge s.cfg.romCapacity length with hover | hfits
  · rw [installRom_of_lt (s := { s with pending := rest }) hover]
    exact ⟨⟨h.seq, h.initialised, rfl⟩, fun hfits => absurd hover (not_lt.2 hfits)⟩
  · rw [installRom_of_le (s := { s with pending := rest }) hfits]
    exact ⟨⟨h.seq, h.initialised, rfl⟩, fun _ => rfl⟩

theorem Ready.step_setPal {b : Int} (h : Ready (.host (.setPal b) :: rest) s) :
    ∃ t, step s = .next t ∧ Ready rest t ∧ t.pal = hostFlag b ∧ t.japanese = s.japanese ∧ t.rom = s.rom :=
  ⟨_, step_hostOp h.seq h.pending, ⟨h.seq, h.initialised, rfl⟩, rfl, rfl, rfl⟩

theorem Ready.step_setJapanese {b : Int} (h : Ready (.host (.setJapanese b) :: rest) s) :
    ∃ t, step s = .next t ∧ Ready rest t ∧ t.pal = s.pal ∧ t.japanese = hostFlag b ∧ t.rom = s.rom :=
  ⟨_, step_hostOp h.seq h.pending, ⟨h.seq, h.initialised, rfl⟩, rfl, rfl, rfl⟩

theorem Ready.step_setRomWriteable {b : Int} (h : Ready (.host (.setRomWriteable b) :: rest) s) :
    ∃ t, step s = .next t ∧ Ready rest t ∧ t.pal = s.pal ∧ t.japanese = s.japanese ∧
      t.rom = { s.rom with writeable := hostFlag b } :=
  ⟨_, step_hostOp h.seq h.pending, ⟨h.seq, h.initialised, rfl⟩, rfl, rfl, rfl⟩

/-- `RESET` changes nothing of the configuration, whatever transactions the CPU issues. -/
theorem Ready.step_reset (h : Ready (.host .reset :: rest) s) :
    ∃ t, step s = .next t ∧ Ready rest t ∧ SameConfiguration { s with pending := rest } t := by
  have hkeeps := (sameConfiguration_cpuCall .cpuReset none { s with pending := rest }).trans
    (sameStore_answer _ .nothing).configuration
  exact ⟨_, (step_decoded h.pending rfl).trans (exec_reset h.seq h.initialised),
    ⟨(cpuCall_seq _ _ _).trans h.seq, hkeeps.initialised.trans h.initialised, hkeeps.pending⟩, hkeeps⟩

theorem Ready.step_runFrame {scb iqc : Handle} (h : Ready (.host (.runFrame scb iqc) :: rest) s) :
    ∃ t, step s = .next t ∧ Ready rest t ∧ SameConfiguration { s with pending := rest } t := by
  have hexec := exec_runFrame (s := { s with pending := rest }) scb iqc h.seq h.initialised
  have hkeeps := frameKeepsConfiguration _ _ scb iqc hexec
  exact ⟨_, (step_decoded h.pending rfl).trans hexec,
    ⟨rfl, hkeeps.initialised.trans h.initialised, hkeeps.pending⟩, hkeeps⟩

end

end Sys2Proof.Machine

open Sys2Proof Sys2Proof.Machine

/-- Settles O39: by the two cases of `initialise_cases`. -/
theorem initEstablishesStore : Obligations.InitEstablishesStore := by
  intro s hseq hinit
  refine ⟨_, exec_init hseq hinit, ?_⟩
  obtain ⟨-, h⟩ | ⟨hz, h⟩ := initialise_cases s
  · rw [h]
    exact ⟨rfl, rfl, rfl, rfl, rfl, rfl, hseq, Nat.zero_le _, fun _ =>
      ⟨Memory.read_zeroes, rfl, rfl, Memory.read_zeroes, Memory.read_zeroes, rfl, rfl, rfl⟩⟩
  · rw [h]
    exact ⟨rfl, rfl, rfl, rfl, rfl, rfl, hseq, drawStore_romSize_le _, by simp [hz]⟩

/-- Settles O40: the one call by `cpuCall_spec`; what it serves keeps the store where it only reads. -/
theorem resetOnlyServesCpuTransactions : Obligations.ResetOnlyServesCpuTransactions := by
  intro s hseq hinit
  obtain ⟨qs, e, hcall⟩ := cpuCall_spec .cpuReset none s
  refine ⟨_, qs, e, exec_reset hseq hinit, congrArg (·.answer .nothing) hcall, fun hreads => ?_⟩
  rw [cpuReset, hcall]
  exact (((sameStore_emit s _).trans (sameStore_setEnv _ e)).trans (sameStore_serveAll_reads none hreads _)).trans
    (sameStore_answer _ _)

/-- Settles O46: the steps in their order, each leaving the machine ready for the next request; `RESET` and `RUN_FRAME`
keep what the setters and `INSTALL_ROM` stored. -/
theorem bootOrderRuns : Obligations.BootOrderRuns := by
  intro s bytes length pal japanese writeable scb iqc rest hseq hinit hbytes hpending
  obtain ⟨s₁, hstep₁, hready₁, hcfg⟩ := step_init hseq hinit hpending
  obtain ⟨s₂, hstep₂, hready₂, hsize⟩ := hready₁.step_installRom hbytes
  obtain ⟨s₃, hstep₃, hready₃, hpal₃, -, hrom₃⟩ := hready₂.step_setPal
  obtain ⟨s₄, hstep₄, hready₄, hpal₄, hjapanese₄, hrom₄⟩ := hready₃.step_setJapanese
  obtain ⟨s₅, hstep₅, hready₅, hpal₅, hjapanese₅, hrom₅⟩ := hready₄.step_setRomWriteable
  obtain ⟨s₆, hstep₆, hready₆, hreset⟩ := hready₅.step_reset
  obtain ⟨t, hstep₇, hready₇, hframe⟩ := hready₆.step_runFrame
  simp only [← hostFlag_eq_decide]
  refine ⟨t, ?_, hready₇.pending, hready₇.initialised, hready₇.seq, ?_, ?_, ?_, fun hfits => ?_⟩
  · rw [run_succ_of_step hstep₁, run_succ_of_step hstep₂, run_succ_of_step hstep₃, run_succ_of_step hstep₄,
      run_succ_of_step hstep₅, run_succ_of_step hstep₆, run_succ_of_step hstep₇]
    rfl
  · rw [hframe.pal, hreset.pal, hpal₅, hpal₄, hpal₃]
  · rw [hframe.japanese, hreset.japanese, hjapanese₅, hjapanese₄]
  · rw [hframe.rom, hreset.rom, hrom₅]
  · rw [hframe.rom, hreset.rom, hrom₅, hrom₄, hrom₃, hsize (hcfg.symm ▸ hfits)]
end
